-- ==== Sys2Proof/Word.lean ====
section
/-! DEFINITION. The plain words of the machine: bytes, 16, 32, 64 and 128-bit words (R1, R20, R170). -/

namespace Sys2Proof

/-- A byte of memory. -/
abbrev Byte := BitVec 8
/-- A 32-bit word: an accumulator element, an FP32 value. -/
abbrev Word32 := BitVec 32
/-- A 64-bit word: a g register, a CSR, a queue entry. -/
abbrev Word := BitVec 64
/-- A 128-bit vector register. -/
abbrev VWord := BitVec 128

end Sys2Proof
end

