-- ==== Sys2Proof/Syntax.lean ====
section
/-! DEFINITION. The syntax of every step of the part: one constructor of Instr per row of spec/opcode_table.json.
A row that comes from an instruction word carries the header of R90 and its operands (R97); every other row is a step
of a unit beside the cores (a knot, an engine, the launch-queue unit, firmware, a link), whose data stand in a step
owed (Owed, below). -/

namespace Sys2Proof

/-- g0 to g31 (R6). -/
abbrev GReg := BitVec 5
/-- v0 to v31. -/
abbrev VReg := BitVec 5
/-- p0 to p15. -/
abbrev PReg := BitVec 4
/-- m0 to m7. -/
abbrev MReg := BitVec 3
/-- t0 to t7. -/
abbrev TReg := BitVec 3
/-- c0 to c7. -/
abbrev CReg := BitVec 3
/-- k0 to k7. -/
abbrev KReg := BitVec 3
/-- q0 to q3. -/
abbrev QReg := BitVec 2
/-- mx0 to mx3. -/
abbrev MxReg := BitVec 2
/-- WIN0 to WIN7. -/
abbrev WinNo := BitVec 3

/-- The common header less LEN and OP (R90): qualifying predicate, its negation, and the guard slot when GE is 1. -/
structure Hdr where
  pq : PReg
  pn : Bool
  guard : Option KReg
  deriving DecidableEq, Repr

/-- Conditions of CMP, CMPI, B and VCMP (R112). -/
inductive Cond where | eq | ne | lt | ge | ltu | geu
  deriving DecidableEq, Repr
/-- Width codes of LD (R132). -/
inductive LdW where | b | bu | h | hu | w | wu | d
  deriving DecidableEq, Repr
/-- Width codes of ST (R132). -/
inductive StW where | b | h | w | d
  deriving DecidableEq, Repr
/-- Widths of MCST: `q` stores 16 bytes of a vector (R142). -/
inductive McW where | b | h | w | d | q
  deriving DecidableEq, Repr
/-- Typed buffers (R25). -/
inductive Buf where | w | a | c
  deriving DecidableEq, Repr
/-- The spaces of VGATH and VSCAT (R184). -/
inductive Space where | global | w | a | c
  deriving DecidableEq, Repr
/-- Fence scopes (R144, R260). -/
inductive Scope where | core | clus | die | mod | sys
  deriving DecidableEq, Repr
/-- Integer lane codes (R170). -/
inductive Lane where | b | h | w | d
  deriving DecidableEq, Repr
/-- Floating lane types of VFP and VFMA (R175). -/
inductive FTy where | f32 | bf16 | f16
  deriving DecidableEq, Repr
/-- Lane types of VCMP and VHADD (R177, R185). -/
inductive VTy where | b | h | w | d | f32 | bf16 | f16
  deriving DecidableEq, Repr
/-- Conversion types (R181). -/
inductive CvtTy where | e4m3 | e5m2 | bf16 | f16 | f32 | i8 | i32
  deriving DecidableEq, Repr
/-- Rounding modes (R44). -/
inductive Rnd where | rne | rtz | rdn | rup
  deriving DecidableEq, Repr
/-- Tile layouts of the M format; `cfg` takes TCFG.LAYOUT (R54). -/
inductive Layout where | row | col | xor16 | cfg
  deriving DecidableEq, Repr
/-- Scale modes of TLD (R192). -/
inductive ScaleMode where | page | ones | keep
  deriving DecidableEq, Repr
/-- Summary types (R56). -/
inductive SkTy where | q | h | d | m
  deriving DecidableEq, Repr
/-- Where a TLD or TST goes: a global address, or buffer W or A (R98, R191, R193). -/
inductive TMem where | global | w | a
  deriving DecidableEq, Repr
/-- The count operand of LOOP (R121). -/
inductive LoopSrc where | reg (a : GReg) | imm (n : BitVec 16)
  deriving DecidableEq, Repr
/-- A scalar operand of a vector or matrix command: a g register, or one entry of a queue register (R172). -/
inductive ScalarSrc where | g (r : GReg) | q (r : QReg)
  deriving DecidableEq, Repr
/-- The two scalar operands of VMOVG (R180). -/
inductive VmovgSrc where | g (x y : GReg) | q (x y : QReg)
  deriving DecidableEq, Repr
/-- A payload operand: buffer A or C (`inC`), base register and offset (R93, R150). -/
structure PayOp where
  inC : Bool
  a : GReg
  imm : BitVec 16
  deriving DecidableEq, Repr

/-- A rank of a launch (R8): the launch's number in this model and the rank number. -/
structure RankKey where
  launch : Nat
  rank : Nat
  deriving DecidableEq, Repr
/-- An event: its context and its name (R236). -/
structure EvKey where
  ctx : Nat
  ev : Nat
  deriving DecidableEq, Repr
/-- An offer's stamp cat(T, U) (R241). -/
structure Stamp where
  t : Nat
  u : Nat
  deriving DecidableEq, Repr
/-- Who sent a remote request: the task, the core it ran on, and its rank (R139). -/
structure TaskRef where
  task : Nat
  core : Nat
  rank : RankKey
  deriving DecidableEq, Repr
/-- Operations of AMO and AMOX (R135). -/
inductive AmoOp where | add | and | or | xor | min | max | minu | maxu | swap
  deriving DecidableEq, Repr
/-- What a remote request does at its target (R139, R142). -/
inductive RemOp where
  | load (wd : LdW) (d : GReg)
  | store (bs : List Byte)
  | amo (op : AmoOp) (dbl : Bool) (v : Word) (d : GReg)
  deriving DecidableEq, Repr
/-- The deliveries of an MCST: the clusters it names, the ranks it has reached, and those that refused it (R142, R143). -/
structure Cast where
  clusters : List Nat
  served : List RankKey
  refused : List Nat
  deriving DecidableEq, Repr
/-- A remote request on its way to its target, with its place in issue order; an MCST is one request with many deliveries
(R139 to R143). -/
structure RemoteReq where
  /-- Its number in this model. -/
  id : Nat
  /-- Its 32-bit sequence number at its source (R323). -/
  seq : Nat := 0
  src : TaskRef
  pc : Word
  tgt : RankKey
  /-- The core that the source holds its target bound to (R321). -/
  at_ : Nat
  buf : Buf
  off : Nat
  op : RemOp
  cast : Option Cast
  deriving DecidableEq, Repr
/-- A reply on its way back: data, an acknowledgement, a refusal (R140), or the offset of a poisoned byte read (R361). -/
inductive RemAns where
  | data (v : Word)
  | ack
  | nack
  | poison (off : Nat)
  deriving DecidableEq, Repr
structure RemoteRep where
  req : RemoteReq
  ans : RemAns
  deriving DecidableEq, Repr
/-- Event status codes (R40). -/
inductive Status where
  | occurred | notready | timeout | aborted | cancelled | peerFailed | withdrawn | full | empty
  deriving DecidableEq, Repr
/-- A COMMIT on its way to one party's record (R240, R245): the alternative, the event, the instance, the status and
the combined payload for that party. -/
structure CommitMsg where
  ro : Nat
  alt : Nat
  e : EvKey
  inst : Nat
  st : Status
  bs : List Byte
  deriving DecidableEq, Repr
/-- The open notice of R293, with the request that it opens and the detokeniser assigned to it (R290). -/
structure Notice where
  id : Nat
  ctx : Nat
  vh : Nat
  req : Nat
  maxtok : Nat
  raddr : List Byte
  job : Nat
  process : Nat
  detok : Nat
  deriving DecidableEq, Repr
/-- Delivery modes of an Ultra Ethernet message (R349). -/
inductive UeMode where | rud | rod | rudi | uud
  deriving DecidableEq, Repr
/-- The operations of the semantic sublayer (R349): a send, a write at an address, a read of n bytes at one. -/
inductive UeOp where | send | write (va : Nat) | read (va n : Nat)
  deriving DecidableEq, Repr
/-- What brings the ROM to run: a deassertion of PERST, a function-level reset, or its own next step, in which it verifies
the flash (R343, R344). -/
inductive BootCause where | perst | flr | verify
  deriving DecidableEq, Repr
/-- What the patrol scrub finds on a line (R361). -/
inductive ScrubFind where | clean | corrected (dram : Bool) | poisoned
  deriving DecidableEq, Repr

/-- Every step of the part, in the order of the opcode table's families (spec/opcode_table.json). -/
inductive Instr where
  /-- Writes a + b modulo 2^64 to g[d] (R107). -/
  | add (h : Hdr) (d : GReg) (a : GReg) (b : GReg)
  /-- Writes a − b modulo 2^64 to g[d] (R107). -/
  | sub (h : Hdr) (d : GReg) (a : GReg) (b : GReg)
  /-- Writes the bitwise AND of a and b to g[d] (R107). -/
  | and (h : Hdr) (d : GReg) (a : GReg) (b : GReg)
  /-- Writes the bitwise OR of a and b to g[d] (R107). -/
  | or (h : Hdr) (d : GReg) (a : GReg) (b : GReg)
  /-- Writes the bitwise XOR of a and b to g[d] (R107). -/
  | xor (h : Hdr) (d : GReg) (a : GReg) (b : GReg)
  /-- Writes a AND NOT b to g[d] (R107). -/
  | andn (h : Hdr) (d : GReg) (a : GReg) (b : GReg)
  /-- Shifts a left by b[5:0] into g[d] (R107). -/
  | shl (h : Hdr) (d : GReg) (a : GReg) (b : GReg)
  /-- Shifts a right by b[5:0], filling with zeros, into g[d] (R107). -/
  | shr (h : Hdr) (d : GReg) (a : GReg) (b : GReg)
  /-- Shifts a right by b[5:0], filling with the sign, into g[d] (R107). -/
  | sar (h : Hdr) (d : GReg) (a : GReg) (b : GReg)
  /-- Rotates a right by b[5:0] into g[d] (R107). -/
  | ror (h : Hdr) (d : GReg) (a : GReg) (b : GReg)
  /-- Writes the signed minimum of a and b to g[d] (R107). -/
  | min (h : Hdr) (d : GReg) (a : GReg) (b : GReg)
  /-- Writes the signed maximum of a and b to g[d] (R107). -/
  | max (h : Hdr) (d : GReg) (a : GReg) (b : GReg)
  /-- Writes the unsigned minimum of a and b to g[d] (R107). -/
  | minu (h : Hdr) (d : GReg) (a : GReg) (b : GReg)
  /-- Writes the unsigned maximum of a and b to g[d] (R107). -/
  | maxu (h : Hdr) (d : GReg) (a : GReg) (b : GReg)
  /-- Writes the low 64 bits of a × b to g[d] (R107). -/
  | mul (h : Hdr) (d : GReg) (a : GReg) (b : GReg)
  /-- Writes the high 64 bits of the signed product to g[d] (R107). -/
  | mulh (h : Hdr) (d : GReg) (a : GReg) (b : GReg)
  /-- Writes the high 64 bits of the unsigned product to g[d] (R107). -/
  | mulhu (h : Hdr) (d : GReg) (a : GReg) (b : GReg)
  /-- Writes the signed quotient rounded toward zero, with the fixed results for zero divisor and overflow (R108). -/
  | div (h : Hdr) (d : GReg) (a : GReg) (b : GReg)
  /-- Writes the unsigned quotient, or all ones for a zero divisor (R108). -/
  | divu (h : Hdr) (d : GReg) (a : GReg) (b : GReg)
  /-- Writes the signed remainder with the sign of the dividend (R108). -/
  | rem (h : Hdr) (d : GReg) (a : GReg) (b : GReg)
  /-- Writes the unsigned remainder, or a for a zero divisor (R108). -/
  | remu (h : Hdr) (d : GReg) (a : GReg) (b : GReg)
  /-- Writes the sign-extended low 32 bits of a + b (R107). -/
  | addw (h : Hdr) (d : GReg) (a : GReg) (b : GReg)
  /-- Writes the sign-extended low 32 bits of a − b (R107). -/
  | subw (h : Hdr) (d : GReg) (a : GReg) (b : GReg)
  /-- Writes the sign-extended low 32 bits of a × b (R107). -/
  | mulw (h : Hdr) (d : GReg) (a : GReg) (b : GReg)
  /-- Counts the leading zero bits of a (R109). -/
  | clz (h : Hdr) (d : GReg) (a : GReg)
  /-- Counts the trailing zero bits of a (R109). -/
  | ctz (h : Hdr) (d : GReg) (a : GReg)
  /-- Counts the one bits of a (R109). -/
  | popc (h : Hdr) (d : GReg) (a : GReg)
  /-- Reverses the byte order of a (R109). -/
  | bswap (h : Hdr) (d : GReg) (a : GReg)
  /-- Sign-extends the low n bits of a (R109). -/
  | sext (h : Hdr) (d : GReg) (a : GReg) (n : BitVec 7)
  /-- Zero-extends the low n bits of a (R109). -/
  | zext (h : Hdr) (d : GReg) (a : GReg) (n : BitVec 7)
  /-- Extracts a bit field of a into g[d] (R109). -/
  | bfx (h : Hdr) (d : GReg) (a : GReg) (lsb : BitVec 6) (width : BitVec 7)
  /-- Inserts the low bits of a into a bit field of g[d] (R109). -/
  | bfi (h : Hdr) (d : GReg) (a : GReg) (lsb : BitVec 6) (width : BitVec 7)
  /-- Adds a sign-extended 30-bit immediate (R110). -/
  | addi (h : Hdr) (d : GReg) (a : GReg) (imm : BitVec 30)
  /-- ANDs with a sign-extended immediate (R110). -/
  | andi (h : Hdr) (d : GReg) (a : GReg) (imm : BitVec 30)
  /-- ORs with a sign-extended immediate (R110). -/
  | ori (h : Hdr) (d : GReg) (a : GReg) (imm : BitVec 30)
  /-- XORs with a sign-extended immediate (R110). -/
  | xori (h : Hdr) (d : GReg) (a : GReg) (imm : BitVec 30)
  /-- Shifts left by an immediate count (R110). -/
  | shli (h : Hdr) (d : GReg) (a : GReg) (n : BitVec 6)
  /-- Shifts right logically by an immediate count (R110). -/
  | shri (h : Hdr) (d : GReg) (a : GReg) (n : BitVec 6)
  /-- Shifts right arithmetically by an immediate count (R110). -/
  | sari (h : Hdr) (d : GReg) (a : GReg) (n : BitVec 6)
  /-- Rotates right by an immediate count (R110). -/
  | rori (h : Hdr) (d : GReg) (a : GReg) (n : BitVec 6)
  /-- Signed minimum with an immediate (R110). -/
  | mini (h : Hdr) (d : GReg) (a : GReg) (imm : BitVec 30)
  /-- Signed maximum with an immediate (R110). -/
  | maxi (h : Hdr) (d : GReg) (a : GReg) (imm : BitVec 30)
  /-- 32-bit add with an immediate, sign-extended (R110). -/
  | addwi (h : Hdr) (d : GReg) (a : GReg) (imm : BitVec 30)
  /-- Writes a 64-bit literal to g[d] (R111). -/
  | movl (h : Hdr) (d : GReg) (lit : BitVec 64)
  /-- Writes PC plus a signed 32-bit offset to g[d] (R111). -/
  | pcrel (h : Hdr) (d : GReg) (off : BitVec 32)
  /-- Sets p[d] to a condition on two registers (R112). -/
  | cmp (h : Hdr) (cond : Cond) (d : PReg) (a : GReg) (b : GReg)
  /-- Sets p[d] to a condition on a register and an immediate (R112). -/
  | cmpi (h : Hdr) (cond : Cond) (d : PReg) (a : GReg) (imm : BitVec 30)
  /-- ANDs two predicates (R113). -/
  | pand (h : Hdr) (d : PReg) (a : PReg) (b : PReg)
  /-- ORs two predicates (R113). -/
  | por (h : Hdr) (d : PReg) (a : PReg) (b : PReg)
  /-- XORs two predicates (R113). -/
  | pxor (h : Hdr) (d : PReg) (a : PReg) (b : PReg)
  /-- ANDs a predicate with the negation of another (R113). -/
  | pandn (h : Hdr) (d : PReg) (a : PReg) (b : PReg)
  /-- Negates a predicate (R113). -/
  | pnot (h : Hdr) (d : PReg) (a : PReg)
  /-- Copies a predicate (R113). -/
  | pmov (h : Hdr) (d : PReg) (a : PReg)
  /-- Sets a predicate to an immediate bit (R113). -/
  | pset (h : Hdr) (d : PReg) (v : BitVec 1)
  /-- Selects a or b into g[d] by a predicate (R114). -/
  | sel (h : Hdr) (d : GReg) (c : PReg) (a : GReg) (b : GReg)
  /-- Reads a CSR into g[d], ordered as R117 requires (R115). -/
  | csrr (h : Hdr) (d : GReg) (csr : BitVec 12)
  /-- Writes a CSR field by field by access code, after its checks (R116). -/
  | csrw (h : Hdr) (csr : BitVec 12) (a : GReg)
  /-- Sets bits of a CSR (R116). -/
  | csrs (h : Hdr) (csr : BitVec 12) (a : GReg)
  /-- Clears bits of a CSR (R116). -/
  | csrc (h : Hdr) (csr : BitVec 12) (a : GReg)
  /-- Branches when a condition on two registers holds (R118). -/
  | b (h : Hdr) (cond : Cond) (a : GReg) (b : GReg) (off : BitVec 31)
  /-- Branches when a predicate is true or false (R119). -/
  | bp (h : Hdr) (neg : BitVec 1) (a : PReg) (off : BitVec 31)
  /-- Branches unconditionally (R119). -/
  | jmp (h : Hdr) (off : BitVec 31)
  /-- Links PC + 8 into g[d] and jumps PC-relative (R120). -/
  | jal (h : Hdr) (d : GReg) (imm : BitVec 30)
  /-- Links PC + 8 and jumps to a register plus immediate (R120). -/
  | jalr (h : Hdr) (d : GReg) (a : GReg) (imm : BitVec 30)
  /-- Sets up a hardware loop counter and enters or skips the body (R121). -/
  | loop (h : Hdr) (lc : BitVec 1) (src : LoopSrc) (off : BitVec 32)
  /-- Resolves a guard slot's generation to a predicate and advances it, arming guarded engine issues (R125). -/
  | gset (h : Hdr) (d : KReg) (a : PReg)
  /-- Resolves a guard slot's generation to false and advances it (R125). -/
  | gkill (h : Hdr) (d : KReg)
  /-- Appends a register to a queue register, blocking while it is full (R128). -/
  | qput (h : Hdr) (d : QReg) (a : GReg)
  /-- Removes the oldest queue entry into a register, blocking while empty (R128). -/
  | qget (h : Hdr) (d : GReg) (a : QReg)
  /-- Loads from a global virtual address after translation checks (R132). -/
  | ld (h : Hdr) (wd : LdW) (d : GReg) (a : GReg) (off : BitVec 32)
  /-- Acquire load that orders every later access of the task after it (R134). -/
  | ldAq (h : Hdr) (wd : LdW) (d : GReg) (a : GReg) (off : BitVec 32)
  /-- Stores to a global virtual address after translation checks (R132). -/
  | st (h : Hdr) (wd : StW) (b : GReg) (a : GReg) (off : BitVec 32)
  /-- Release store performed after every earlier access, draining the combining buffer (R134). -/
  | stRl (h : Hdr) (wd : StW) (b : GReg) (a : GReg) (off : BitVec 32)
  /-- Loads from the core's own typed buffer (R138). -/
  | lds (h : Hdr) (buf : Buf) (wd : LdW) (d : GReg) (a : GReg) (off : BitVec 32)
  /-- Stores to the core's own typed buffer (R138). -/
  | sts (h : Hdr) (buf : Buf) (wd : StW) (b : GReg) (a : GReg) (off : BitVec 32)
  /-- Loads from another rank's W or A buffer through its windows (R139). -/
  | ldx (h : Hdr) (buf : Buf) (wd : LdW) (d : GReg) (b : GReg) (a : GReg) (off : BitVec 32)
  /-- Stores to another rank's W or A buffer through its windows (R139). -/
  | stx (h : Hdr) (buf : Buf) (wd : StW) (b : GReg) (c : GReg) (a : GReg) (off : BitVec 32)
  /-- Remote store that sends nothing and clears p1 when no credit is free (R141). -/
  | stxT (h : Hdr) (buf : Buf) (wd : StW) (b : GReg) (c : GReg) (a : GReg) (off : BitVec 32)
  /-- Atomic add at a global address, returning the old value (R135). -/
  | amoAdd (h : Hdr) (dbl : BitVec 1) (d : GReg) (a : GReg) (b : GReg) (off : BitVec 32)
  /-- Atomic AND at a global address (R135). -/
  | amoAnd (h : Hdr) (dbl : BitVec 1) (d : GReg) (a : GReg) (b : GReg) (off : BitVec 32)
  /-- Atomic OR at a global address (R135). -/
  | amoOr (h : Hdr) (dbl : BitVec 1) (d : GReg) (a : GReg) (b : GReg) (off : BitVec 32)
  /-- Atomic XOR at a global address (R135). -/
  | amoXor (h : Hdr) (dbl : BitVec 1) (d : GReg) (a : GReg) (b : GReg) (off : BitVec 32)
  /-- Atomic signed minimum at a global address (R135). -/
  | amoMin (h : Hdr) (dbl : BitVec 1) (d : GReg) (a : GReg) (b : GReg) (off : BitVec 32)
  /-- Atomic signed maximum at a global address (R135). -/
  | amoMax (h : Hdr) (dbl : BitVec 1) (d : GReg) (a : GReg) (b : GReg) (off : BitVec 32)
  /-- Atomic unsigned minimum at a global address (R135). -/
  | amoMinu (h : Hdr) (dbl : BitVec 1) (d : GReg) (a : GReg) (b : GReg) (off : BitVec 32)
  /-- Atomic unsigned maximum at a global address (R135). -/
  | amoMaxu (h : Hdr) (dbl : BitVec 1) (d : GReg) (a : GReg) (b : GReg) (off : BitVec 32)
  /-- Atomic swap at a global address (R135). -/
  | amoSwap (h : Hdr) (dbl : BitVec 1) (d : GReg) (a : GReg) (b : GReg) (off : BitVec 32)
  /-- Compares and swaps at a global address, returning the old value (R135). -/
  | cas (h : Hdr) (dbl : BitVec 1) (d : GReg) (a : GReg) (b : GReg) (c : GReg) (off : BitVec 32)
  /-- Remote atomic add in another rank's buffer (R139). -/
  | amoxAdd (h : Hdr) (buf : Buf) (dbl : BitVec 1) (d : GReg) (b : GReg) (c : GReg) (a : GReg) (off : BitVec 32)
  /-- Remote atomic AND (R139). -/
  | amoxAnd (h : Hdr) (buf : Buf) (dbl : BitVec 1) (d : GReg) (b : GReg) (c : GReg) (a : GReg) (off : BitVec 32)
  /-- Remote atomic OR (R139). -/
  | amoxOr (h : Hdr) (buf : Buf) (dbl : BitVec 1) (d : GReg) (b : GReg) (c : GReg) (a : GReg) (off : BitVec 32)
  /-- Remote atomic XOR (R139). -/
  | amoxXor (h : Hdr) (buf : Buf) (dbl : BitVec 1) (d : GReg) (b : GReg) (c : GReg) (a : GReg) (off : BitVec 32)
  /-- Remote atomic signed minimum (R139). -/
  | amoxMin (h : Hdr) (buf : Buf) (dbl : BitVec 1) (d : GReg) (b : GReg) (c : GReg) (a : GReg) (off : BitVec 32)
  /-- Remote atomic signed maximum (R139). -/
  | amoxMax (h : Hdr) (buf : Buf) (dbl : BitVec 1) (d : GReg) (b : GReg) (c : GReg) (a : GReg) (off : BitVec 32)
  /-- Remote atomic unsigned minimum (R139). -/
  | amoxMinu (h : Hdr) (buf : Buf) (dbl : BitVec 1) (d : GReg) (b : GReg) (c : GReg) (a : GReg) (off : BitVec 32)
  /-- Remote atomic unsigned maximum (R139). -/
  | amoxMaxu (h : Hdr) (buf : Buf) (dbl : BitVec 1) (d : GReg) (b : GReg) (c : GReg) (a : GReg) (off : BitVec 32)
  /-- Remote atomic swap (R139). -/
  | amoxSwap (h : Hdr) (buf : Buf) (dbl : BitVec 1) (d : GReg) (b : GReg) (c : GReg) (a : GReg) (off : BitVec 32)
  /-- Holds the scalar stream until predecessor accesses are performed at the scope, then writes FSTAT and p1 (R145). -/
  | fence (h : Hdr) (scope : Scope) (pred : BitVec 7) (succ : BitVec 7)
  /-- Prefetches a translation for reading (R147). -/
  | pref (h : Hdr) (a : GReg) (off : BitVec 32)
  /-- Prefetches a translation for writing (R147). -/
  | prefSt (h : Hdr) (a : GReg) (off : BitVec 32)
  /-- Sends one store to every rank placed in the masked clusters (R142). -/
  | mcst (h : Hdr) (buf : Buf) (wd : McW) (b : GReg) (c : GReg) (a : GReg) (off : BitVec 32)
  /-- Writes a window register after earlier admitted accesses are performed (R148). -/
  | winset (h : Hdr) (n : WinNo) (a : GReg)
  /-- Clears a window register after earlier admitted accesses are performed (R148). -/
  | winclr (h : Hdr) (n : WinNo)
  /-- Offers an event and ends the segment as a wait point (R153). -/
  | evw (h : Hdr) (ev : BitVec 20) (b : GReg) (pay : Option PayOp) (c : GReg)
  /-- Offers an event as a try and stalls for the knot's answer (R155). -/
  | evt (h : Hdr) (ev : BitVec 20) (b : GReg) (pay : Option PayOp)
  /-- Offers a choice of up to eight events and waits for one to occur (R158). -/
  | chooseW (h : Hdr) (n : BitVec 5) (a : GReg) (imm : BitVec 16) (c : GReg)
  /-- Offers a choice of events as a try (R158). -/
  | chooseT (h : Hdr) (n : BitVec 5) (a : GReg) (imm : BitVec 16)
  /-- Enters an offer in the deferred list, sent at segment commit (R159). -/
  | signal (h : Hdr) (ev : BitVec 20) (b : GReg) (pay : Option PayOp)
  /-- Defers arming a counted event with an arity from a register (R160). -/
  | armReg (h : Hdr) (ev : BitVec 20) (b : GReg) (a : GReg)
  /-- Defers arming a counted event with an immediate arity (R160). -/
  | armImm (h : Hdr) (ev : BitVec 20) (b : GReg) (n : BitVec 16)
  /-- Captures a TCB and pushes the task onto the spawn deque at commit (R163). -/
  | spawn (h : Hdr) (a : GReg) (imm : BitVec 16)
  /-- Ends the task, committing its deferred list and successor signals (R164). -/
  | endTask (h : Hdr)
  /-- Ends the segment with no offer and makes the task ready again (R165). -/
  | yield (h : Hdr) (c : GReg)
  /-- Defers a standing offer on a binding event with an entry and depth (R166). -/
  | bind (h : Hdr) (ev : BitVec 20) (b : GReg) (a : GReg) (depth : BitVec 16)
  /-- Defers removing the rank's binding on an event (R166). -/
  | unbind (h : Hdr) (ev : BitVec 20) (b : GReg)
  /-- Reads an event's state word from its knot (R169). -/
  | evseq (h : Hdr) (d : GReg) (ev : BitVec 20) (b : GReg)
  /-- Lane-wise integer add (R173). -/
  | vadd (h : Hdr) (l : Lane) (d : VReg) (a : VReg) (b : VReg) (m : MReg)
  /-- Lane-wise integer subtract (R173). -/
  | vsub (h : Hdr) (l : Lane) (d : VReg) (a : VReg) (b : VReg) (m : MReg)
  /-- Lane-wise low product (R173). -/
  | vmul (h : Hdr) (l : Lane) (d : VReg) (a : VReg) (b : VReg) (m : MReg)
  /-- Lane-wise signed high product (R173). -/
  | vmulh (h : Hdr) (l : Lane) (d : VReg) (a : VReg) (b : VReg) (m : MReg)
  /-- Lane-wise signed minimum (R173). -/
  | vmin (h : Hdr) (l : Lane) (d : VReg) (a : VReg) (b : VReg) (m : MReg)
  /-- Lane-wise signed maximum (R173). -/
  | vmax (h : Hdr) (l : Lane) (d : VReg) (a : VReg) (b : VReg) (m : MReg)
  /-- Lane-wise unsigned minimum (R173). -/
  | vminu (h : Hdr) (l : Lane) (d : VReg) (a : VReg) (b : VReg) (m : MReg)
  /-- Lane-wise unsigned maximum (R173). -/
  | vmaxu (h : Hdr) (l : Lane) (d : VReg) (a : VReg) (b : VReg) (m : MReg)
  /-- Lane-wise AND (R173). -/
  | vand (h : Hdr) (l : Lane) (d : VReg) (a : VReg) (b : VReg) (m : MReg)
  /-- Lane-wise OR (R173). -/
  | vor (h : Hdr) (l : Lane) (d : VReg) (a : VReg) (b : VReg) (m : MReg)
  /-- Lane-wise XOR (R173). -/
  | vxor (h : Hdr) (l : Lane) (d : VReg) (a : VReg) (b : VReg) (m : MReg)
  /-- Lane-wise AND NOT (R173). -/
  | vandn (h : Hdr) (l : Lane) (d : VReg) (a : VReg) (b : VReg) (m : MReg)
  /-- Lane-wise shift left (R173). -/
  | vshl (h : Hdr) (l : Lane) (d : VReg) (a : VReg) (b : VReg) (m : MReg)
  /-- Lane-wise logical shift right (R173). -/
  | vshr (h : Hdr) (l : Lane) (d : VReg) (a : VReg) (b : VReg) (m : MReg)
  /-- Lane-wise arithmetic shift right (R173). -/
  | vsar (h : Hdr) (l : Lane) (d : VReg) (a : VReg) (b : VReg) (m : MReg)
  /-- Lane-wise absolute value (R173). -/
  | vabs (h : Hdr) (l : Lane) (d : VReg) (a : VReg) (m : MReg)
  /-- Lane-wise negation (R173). -/
  | vneg (h : Hdr) (l : Lane) (d : VReg) (a : VReg) (m : MReg)
  /-- Lane-wise add of an immediate (R174). -/
  | vaddi (h : Hdr) (l : Lane) (d : VReg) (a : VReg) (imm : BitVec 16) (m : MReg)
  /-- Lane-wise subtract of an immediate (R174). -/
  | vsubi (h : Hdr) (l : Lane) (d : VReg) (a : VReg) (imm : BitVec 16) (m : MReg)
  /-- Lane-wise signed minimum with an immediate (R174). -/
  | vmini (h : Hdr) (l : Lane) (d : VReg) (a : VReg) (imm : BitVec 16) (m : MReg)
  /-- Lane-wise signed maximum with an immediate (R174). -/
  | vmaxi (h : Hdr) (l : Lane) (d : VReg) (a : VReg) (imm : BitVec 16) (m : MReg)
  /-- Lane-wise unsigned minimum with an immediate (R174). -/
  | vminui (h : Hdr) (l : Lane) (d : VReg) (a : VReg) (imm : BitVec 16) (m : MReg)
  /-- Lane-wise unsigned maximum with an immediate (R174). -/
  | vmaxui (h : Hdr) (l : Lane) (d : VReg) (a : VReg) (imm : BitVec 16) (m : MReg)
  /-- Lane-wise AND with an immediate (R174). -/
  | vandi (h : Hdr) (l : Lane) (d : VReg) (a : VReg) (imm : BitVec 16) (m : MReg)
  /-- Lane-wise OR with an immediate (R174). -/
  | vori (h : Hdr) (l : Lane) (d : VReg) (a : VReg) (imm : BitVec 16) (m : MReg)
  /-- Lane-wise XOR with an immediate (R174). -/
  | vxori (h : Hdr) (l : Lane) (d : VReg) (a : VReg) (imm : BitVec 16) (m : MReg)
  /-- Lane-wise AND NOT with an immediate (R174). -/
  | vandni (h : Hdr) (l : Lane) (d : VReg) (a : VReg) (imm : BitVec 16) (m : MReg)
  /-- Lane-wise shift left by an immediate count (R174). -/
  | vshli (h : Hdr) (l : Lane) (d : VReg) (a : VReg) (imm : BitVec 16) (m : MReg)
  /-- Lane-wise logical shift right by an immediate count (R174). -/
  | vshri (h : Hdr) (l : Lane) (d : VReg) (a : VReg) (imm : BitVec 16) (m : MReg)
  /-- Lane-wise arithmetic shift right by an immediate count (R174). -/
  | vsari (h : Hdr) (l : Lane) (d : VReg) (a : VReg) (imm : BitVec 16) (m : MReg)
  /-- Lane-wise floating add, rounded once (R175). -/
  | vfadd (h : Hdr) (t : FTy) (rnd : Rnd) (d : VReg) (a : VReg) (b : VReg) (m : MReg)
  /-- Lane-wise floating subtract (R175). -/
  | vfsub (h : Hdr) (t : FTy) (rnd : Rnd) (d : VReg) (a : VReg) (b : VReg) (m : MReg)
  /-- Lane-wise floating multiply (R175). -/
  | vfmul (h : Hdr) (t : FTy) (rnd : Rnd) (d : VReg) (a : VReg) (b : VReg) (m : MReg)
  /-- Lane-wise floating divide (R175). -/
  | vfdiv (h : Hdr) (t : FTy) (rnd : Rnd) (d : VReg) (a : VReg) (b : VReg) (m : MReg)
  /-- Lane-wise floating minimum with NaN rules (R175). -/
  | vfmin (h : Hdr) (t : FTy) (rnd : Rnd) (d : VReg) (a : VReg) (b : VReg) (m : MReg)
  /-- Lane-wise floating maximum with NaN rules (R175). -/
  | vfmax (h : Hdr) (t : FTy) (rnd : Rnd) (d : VReg) (a : VReg) (b : VReg) (m : MReg)
  /-- Lane-wise correctly rounded square root (R175). -/
  | vfsqrt (h : Hdr) (t : FTy) (rnd : Rnd) (d : VReg) (a : VReg) (m : MReg)
  /-- Lane-wise floating absolute value (R175). -/
  | vfabs (h : Hdr) (t : FTy) (rnd : Rnd) (d : VReg) (a : VReg) (m : MReg)
  /-- Lane-wise floating negation (R175). -/
  | vfneg (h : Hdr) (t : FTy) (rnd : Rnd) (d : VReg) (a : VReg) (m : MReg)
  /-- Lane-wise correctly rounded 2^x (R175). -/
  | vfex2 (h : Hdr) (t : FTy) (rnd : Rnd) (d : VReg) (a : VReg) (m : MReg)
  /-- Lane-wise correctly rounded log2 x (R175). -/
  | vflg2 (h : Hdr) (t : FTy) (rnd : Rnd) (d : VReg) (a : VReg) (m : MReg)
  /-- Lane-wise fused a × b + c (R176). -/
  | vfma (h : Hdr) (t : FTy) (rnd : Rnd) (d : VReg) (a : VReg) (b : VReg) (c : VReg) (m : MReg)
  /-- Lane-wise fused a × b − c (R176). -/
  | vfms (h : Hdr) (t : FTy) (rnd : Rnd) (d : VReg) (a : VReg) (b : VReg) (c : VReg) (m : MReg)
  /-- Lane-wise fused −(a × b) + c (R176). -/
  | vfnma (h : Hdr) (t : FTy) (rnd : Rnd) (d : VReg) (a : VReg) (b : VReg) (c : VReg) (m : MReg)
  /-- Compares lanes and writes a mask (R177). -/
  | vcmp (h : Hdr) (cond : Cond) (t : VTy) (d : MReg) (a : VReg) (b : VReg) (m : MReg)
  /-- Selects bytes from two vectors by a mask (R178). -/
  | vsel (h : Hdr) (d : VReg) (a : VReg) (b : VReg) (m : MReg)
  /-- Permutes lanes by indices in a second vector (R180). -/
  | vperm (h : Hdr) (l : Lane) (d : VReg) (a : VReg) (b : VReg) (m : MReg)
  /-- Copies a scalar into every lane (R180). -/
  | vsplat (h : Hdr) (l : Lane) (d : VReg) (src : ScalarSrc) (m : MReg)
  /-- Extracts one lane into a g register (R180). -/
  | vext (h : Hdr) (l : Lane) (d : GReg) (a : VReg) (ix : BitVec 4)
  /-- Inserts a scalar into one lane (R180). -/
  | vins (h : Hdr) (l : Lane) (d : VReg) (src : ScalarSrc) (ix : BitVec 4) (m : MReg)
  /-- Converts lanes between formats with optional scale and amax observation (R182). -/
  | vcvt (h : Hdr) (src : CvtTy) (dst : CvtTy) (part : BitVec 2) (rnd : Rnd) (inf : BitVec 1) (d : VReg) (a : VReg) (sc : ScalarSrc) (ae : BitVec 1) (mxn : MxReg) (m : MReg)
  /-- Loads 16 bytes from a global address (R183). -/
  | vld (h : Hdr) (d : VReg) (a : GReg) (off : BitVec 32) (m : MReg)
  /-- Stores 16 bytes to a global address (R183). -/
  | vst (h : Hdr) (b : VReg) (a : GReg) (off : BitVec 32) (m : MReg)
  /-- Loads 16 bytes from a typed buffer (R183). -/
  | vlds (h : Hdr) (buf : Buf) (d : VReg) (a : GReg) (off : BitVec 32) (m : MReg)
  /-- Stores 16 bytes to a typed buffer (R183). -/
  | vsts (h : Hdr) (buf : Buf) (b : VReg) (a : GReg) (off : BitVec 32) (m : MReg)
  /-- Gathers four elements through 32-bit offsets (R184). -/
  | vgath (h : Hdr) (sp : Space) (l : Lane) (d : VReg) (a : GReg) (b : VReg) (off : BitVec 32) (m : MReg)
  /-- Scatters four elements through 32-bit offsets (R184). -/
  | vscat (h : Hdr) (sp : Space) (l : Lane) (a : GReg) (b : VReg) (c : VReg) (off : BitVec 32) (m : MReg)
  /-- Adds adjacent lane pairs (R185). -/
  | vhadd (h : Hdr) (t : VTy) (rnd : Rnd) (d : VReg) (a : VReg) (m : MReg)
  /-- ANDs two masks (R179). -/
  | mand (h : Hdr) (d : MReg) (a : MReg) (b : MReg)
  /-- ORs two masks (R179). -/
  | mor (h : Hdr) (d : MReg) (a : MReg) (b : MReg)
  /-- XORs two masks (R179). -/
  | mxor (h : Hdr) (d : MReg) (a : MReg) (b : MReg)
  /-- Negates a mask (R179). -/
  | mnot (h : Hdr) (d : MReg) (a : MReg)
  /-- Sets a mask to an immediate (R179). -/
  | mset (h : Hdr) (d : MReg) (imm : BitVec 16)
  /-- Reads a ganged neighbour's vector register (R188). -/
  | vxg (h : Hdr) (d : VReg) (a : VReg) (ix : BitVec 4) (m : MReg)
  /-- Couples the quad's four cores to run the leader's stream (R186). -/
  | gangOn (h : Hdr)
  /-- Uncouples the quad (R186). -/
  | gangOff (h : Hdr)
  /-- Copies a vector register under a byte mask (R180). -/
  | vmov (h : Hdr) (d : VReg) (a : VReg) (m : MReg)
  /-- Builds a vector from two scalars (R180). -/
  | vmovg (h : Hdr) (d : VReg) (src : VmovgSrc) (m : MReg)
  /-- Configures a tile register (R190). -/
  | tcfg (h : Hdr) (d : TReg) (a : GReg)
  /-- Loads a tile from global memory or a typed buffer, filling the sidecar (R191). -/
  | tld (h : Hdr) (mem : TMem) (d : TReg) (a : GReg) (imm : BitVec 16) (stride : BitVec 16) (lay : Layout) (sc : ScaleMode)
  /-- Stores a tile to global memory or the A buffer (R193). -/
  | tst (h : Hdr) (mem : TMem) (b : TReg) (a : GReg) (imm : BitVec 16) (stride : BitVec 16) (lay : Layout)
  /-- Zeroes a tile and sets its sidecar to 1.0 (R194). -/
  | tzero (h : Hdr) (d : TReg)
  /-- Multiplies two tiles into an accumulator by the block-exact rules (R195). -/
  | mma (h : Hdr) (d : CReg) (a : TReg) (b : TReg)
  /-- Zeroes an accumulator (R194). -/
  | czero (h : Hdr) (d : CReg)
  /-- Loads an accumulator from the C buffer (R196). -/
  | cld (h : Hdr) (d : CReg) (a : GReg) (off : BitVec 32)
  /-- Stores an accumulator to the C buffer (R196). -/
  | cst (h : Hdr) (b : CReg) (a : GReg) (off : BitVec 32)
  /-- Offers the accumulator on a drain-add event and waits (R198). -/
  | cdrainWAdd (h : Hdr) (d : CReg) (ev : BitVec 20) (b : GReg) (c : GReg)
  /-- Offers the accumulator on a drain-move event and waits (R198). -/
  | cdrainWMov (h : Hdr) (d : CReg) (ev : BitVec 20) (b : GReg) (c : GReg)
  /-- Offers the accumulator on a drain-add event as a try (R199). -/
  | cdrainTAdd (h : Hdr) (d : CReg) (ev : BitVec 20) (b : GReg)
  /-- Offers the accumulator on a drain-move event as a try (R199). -/
  | cdrainTMov (h : Hdr) (d : CReg) (ev : BitVec 20) (b : GReg)
  /-- Waits to receive a drained accumulator into c[d] (R198). -/
  | crecvW (h : Hdr) (d : CReg) (ev : BitVec 20) (b : GReg) (c : GReg)
  /-- Tries to receive a drained accumulator into c[d] (R199). -/
  | crecvT (h : Hdr) (d : CReg) (ev : BitVec 20) (b : GReg)
  /-- Converts an accumulator into a 16×16 tile block (R200). -/
  | ccvt (h : Hdr) (dst : CvtTy) (rnd : Rnd) (inf : BitVec 1) (cb : BitVec 4) (d : TReg) (a : CReg) (sc : ScalarSrc) (ae : BitVec 1) (mxn : MxReg)
  /-- Transposes a tile (R201). -/
  | ttr (h : Hdr) (d : TReg) (a : TReg)
  /-- Reads an amax register (R202). -/
  | mxr (h : Hdr) (d : GReg) (a : MxReg)
  /-- Clears an amax register and its NaN flag (R202). -/
  | mxclr (h : Hdr) (d : MxReg)
  /-- Initialises both blocks of a summary pair (R204). -/
  | skinit (h : Hdr) (t : SkTy) (a : GReg) (imm : BitVec 16)
  /-- Adds FP32 keys to a quantile sketch (R205). -/
  | skqadd (h : Hdr) (b : VReg) (a : GReg) (imm : BitVec 16) (m : MReg)
  /-- Adds keys to a heavy-hitter summary (R205). -/
  | skhadd (h : Hdr) (b : VReg) (a : GReg) (imm : BitVec 16) (m : MReg)
  /-- Adds keys to a distinct-count summary (R205). -/
  | skdadd (h : Hdr) (b : VReg) (a : GReg) (imm : BitVec 16) (m : MReg)
  /-- Adds values to a moment summary (R205). -/
  | skmadd (h : Hdr) (b : VReg) (a : GReg) (imm : BitVec 16) (m : MReg)
  /-- Merges a source block into a pair's working copy (R206). -/
  | skmerge (h : Hdr) (b : GReg) (a : GReg) (imm : BitVec 16)
  /-- Queries a quantile (R207). -/
  | skquant (h : Hdr) (d : GReg) (b : GReg) (a : GReg) (imm : BitVec 16)
  /-- Queries a heavy-hitter counter (R207). -/
  | sktopk (h : Hdr) (d : GReg) (b : GReg) (a : GReg) (imm : BitVec 16)
  /-- Queries a distinct-count estimate (R207). -/
  | skcard (h : Hdr) (d : GReg) (a : GReg) (imm : BitVec 16)
  /-- Queries a moment (R207). -/
  | skmom (h : Hdr) (d : GReg) (b : GReg) (a : GReg) (imm : BitVec 16)
  /-- Issues a copy job and arms its completion event (R211). -/
  | cpy (h : Hdr) (d : GReg) (a : GReg) (imm : BitVec 16)
  /-- Issues a copy job without stalling, reporting success in p1 (R213). -/
  | cpyT (h : Hdr) (d : GReg) (a : GReg) (imm : BitVec 16)
  /-- Issues a copy job that taps its bytes into a summary pair (R214). -/
  | cpysk (h : Hdr) (d : GReg) (b : GReg) (a : GReg) (imm : BitVec 16)
  /-- Defers a collective: arms its completion event and offers COLLSTART at commit (R215). -/
  | coll (h : Hdr) (d : GReg) (a : GReg) (imm : BitVec 16)
  /-- Issues a tokenising job (R217). -/
  | txe (h : Hdr) (d : GReg) (a : GReg) (imm : BitVec 16)
  /-- Issues a detokenising job (R217). -/
  | txd (h : Hdr) (d : GReg) (a : GReg) (imm : BitVec 16)
  /-- Issues a vocabulary load job (R218). -/
  | vocab (h : Hdr) (d : GReg) (a : GReg) (imm : BitVec 16)
  /-- Aborts the segment with trap USER carrying an immediate (R219). -/
  | trap (h : Hdr) (imm : BitVec 30)
  /-- Aborts the segment with trap BREAK carrying an immediate (R219). -/
  | brk (h : Hdr) (imm : BitVec 30)
  /-- Returns from a root-controller trap (R221). -/
  | eret (h : Hdr)
  /-- Invalidates every translation (R222). -/
  | xlinv (h : Hdr)
  /-- Invalidates a context's translations (R222). -/
  | xlinvCtx (h : Hdr) (a : GReg)
  /-- Invalidates one page's translation in a context (R222). -/
  | xlinvVa (h : Hdr) (a : GReg) (b : GReg)
  /-- Saves a quiesced context to the area at CTXREC (R223). -/
  | ctxsave (h : Hdr) (a : GReg)
  /-- Loads a saved context into an unallocated context number (R223). -/
  | ctxload (h : Hdr) (a : GReg)
  /-- Reads an event's state word at its knot (R224). -/
  | knotopRd (h : Hdr) (d : GReg) (a : GReg)
  /-- Sets an event's next instance number (R224). -/
  | knotopWr (h : Hdr) (a : GReg) (b : GReg)
  /-- Removes knot records of an event or context (R224). -/
  | knotopPurge (h : Hdr) (a : GReg)
  /-- Cancels pending offers of an event or context (R224). -/
  | knotopCancel (h : Hdr) (a : GReg)
  /-- Stalls the root-controller core until an interrupt is pending (R225). -/
  | idle (h : Hdr)
  /-- Eight-byte no-operation (R127). -/
  | nop
  /-- Twelve-byte no-operation (R127). -/
  | nopX
  /-- Sixteen-byte no-operation (R127). -/
  | nopL
  /-- A remote load, store, atomic or multicast delivery arrives at its target and is admitted or refused against the windows (R29). -/
  | remoteRequest
  /-- A reply, acknowledgement or negative acknowledgement reaches the sender, returning the credit (R140). -/
  | remoteReply
  /-- An offer reaches its knot, which commits at once, starts a resolution round, refuses FULL or keeps it pending (R243). -/
  | offer
  /-- A claim reaches a choice record, which grants, holds and revokes, or refuses (R244). -/
  | claim
  /-- A grant reaches the claiming knot, which commits once every party has granted (R244). -/
  | grant
  /-- A revoke reaches a younger event's knot, which releases if it has not committed (R244). -/
  | revoke
  /-- A record holding a claim grants it on learning the younger event released (R244). -/
  | released
  /-- A record granted to a released round returns to OPEN (R244). -/
  | release
  /-- A refusal ends the knot's round and it releases its grants (R244). -/
  | refuse
  /-- A commit makes the record DONE, delivers the payload and withdraws its other alternatives (R245). -/
  | commit
  /-- A withdrawal removes an offer at its knot and frees its record (R245). -/
  | withdraw
  /-- A tile payload finishes moving point to point and the party becomes ready (R240). -/
  | tilePayload
  /-- An instance's deadline clock expires and its pending offers are cancelled with TIMEOUT (R248). -/
  | deadline
  /-- A knot's periodic sweep marks records AGED (R241). -/
  | agedSweep
  /-- A refused offer is retried when its doubling backoff expires (R242). -/
  | fullBackoff
  /-- A segment's budget runs out and it aborts with BUDGET (R11). -/
  | budgetExpiry
  /-- A combining-buffer line leaves within 4 µs of its first store (R268). -/
  | combiningLineTimeout
  /-- An idle or segment-ending core picks its next task and runs its completion phase (R13). -/
  | taskDispatch
  /-- A core with an empty ready queue steals a may-migrate TCB and runs it as a visitor (R320). -/
  | steal
  /-- A binding activates a handler task with its activation message (R168). -/
  | handlerActivation
  /-- A copy unit performs a copy job row by row and offers its completion event (R212). -/
  | copyJob
  /-- A job held on a missing translation resumes when the page translates again (R367). -/
  | jobTranslationResume
  /-- At COLLSTART occurrence the engine slot runs the collective's steps and offers OCCURRED to every member's CEV (R256). -/
  | collective
  /-- An ABORT travels down the group's tree and, once acknowledged, members' CEVs occur ABORTED (R257). -/
  | abortColl
  /-- A member's step does not arrive within the deadline and the collective aborts (R257). -/
  | collectiveDeadline
  /-- A crown core runs a USER combine routine on the contributions (R249). -/
  | userRoutine
  /-- A USER routine exceeds 20 µs and the instance is consumed ABORTED (R249). -/
  | userRoutineOverrun
  /-- A text engine tokenises memory text and writes RES (R217). -/
  | txeJob
  /-- A text engine detokenises memory tokens and writes RES (R217). -/
  | txdJob
  /-- A text engine checks and verifies an image and loads the handle (R218). -/
  | vocabJob
  /-- A die walker completes a coalesced three-level walk (R339). -/
  | pageWalk
  /-- A text frame arrives and the tokeniser checks, holds or consumes it (R292). -/
  | textFrame
  /-- The tokeniser offers the next token chunk once the previous one has occurred (R292). -/
  | tokenChunk
  /-- A request whose missing frame stays absent for 10 ms is abandoned (R293). -/
  | missingFrameTimeout
  /-- The detokeniser opens a request's reply state (R293). -/
  | openNotice
  /-- The detokeniser sends an empty LAST reply and frees the request (R293). -/
  | endNotice
  /-- The detokeniser stops emitting for an abandoned request (R293). -/
  | dropNotice
  /-- The detokeniser takes an accepted chunk and sends reply frames in SEQ order (R295). -/
  | detokeniseChunk
  /-- A write of QCTL TAIL offers queue records for acceptance (R299). -/
  | kick
  /-- The part reads, checks, arms and waits for a launch record and advances HEAD (R304). -/
  | launchAccept
  /-- A launch whose waits have occurred is placed, bound, imaged and its entry tasks made ready (R312). -/
  | launchStart
  /-- A finished launch releases, writes its completion record, offers SIGEV and raises its vector (R313). -/
  | launchComplete
  /-- A write of QCTL RESET tears the queue's launches down (R316). -/
  | reset
  /-- Allocates a context, its partition and its link events (R301). -/
  | ctxCreate
  /-- Destroys an idle context (R301). -/
  | ctxDestroy
  /-- Configures a launch queue (R301). -/
  | queueCfg
  /-- Removes every binding of a resident launch (R314). -/
  | launchEnd
  /-- Attaches or detaches a context's text path (R290). -/
  | textAttach
  /-- Firmware runs a VOCAB job for the driver (R301). -/
  | vocabLoad
  /-- Starts dirty tracking for a context (R357). -/
  | trackStart
  /-- Snapshots and clears a context's dirty bitmap (R356). -/
  | harvest
  /-- Pre-empts a whole context and spills its marked blocks (R357). -/
  | quiesce
  /-- Saves a quiesced context and purges its knot records (R357). -/
  | save
  /-- Creates a context from a save area, left quiesced (R357). -/
  | load
  /-- Resumes every core of a quiesced context (R357). -/
  | resume
  /-- Writes a whole-memory checkpoint to host memory (R360). -/
  | ckpt
  /-- Rebuilds every context of a checkpoint image (R357). -/
  | ckptLoad
  /-- The ROM checks a host-supplied image, writes it to flash and boots it (R344). -/
  | recover
  /-- A read pops the oldest report into the trap CSRs (R328). -/
  | trapnext
  /-- Makes the held task of the last report ready again (R329). -/
  | retry
  /-- Tears down every launch queue of the held task's context (R329). -/
  | kill
  /-- Keeps the task held and refers the context to the driver (R329). -/
  | host
  /-- Pre-empts a context on named cores at their segment ends (R331). -/
  | preempt
  /-- Returns a pre-empted context's tasks to the named cores' ready queues (R331). -/
  | preemptResume
  /-- Zeroes HECC (R363). -/
  | hclrEcc
  /-- Zeroes HPOISON and HPADDR (R363). -/
  | hclrPoison
  /-- A write to a register with no row of its own, refused when it breaks its checks (R116). -/
  | registerWrite
  /-- A root-controller core with IE set and IPEND nonzero enters at TVEC (R340). -/
  | interrupt
  /-- Every 10 µs a die's scheduler moves cores among stages (R322). -/
  | stageEvaluation
  /-- Moves a rank with no running segment to a new core (R321). -/
  | graft
  /-- The placement generation advances and sources refresh their bindings (R321). -/
  | placementGeneration
  /-- A dropped packet is resent after its backoff (R323). -/
  | packetResend
  /-- A packet's ageing counter reaches AGE and it is promoted to TC0 service (R324). -/
  | agePromotion
  /-- A host CXL.mem write is performed at the vault and marks dirty tracking (R297). -/
  | cxlMemWrite
  /-- A host CXL.mem read is performed at the vault (R297). -/
  | cxlMemRead
  /-- At PERST deassertion or function-level reset the ROM verifies and starts firmware or enters recovery (R343). -/
  | heartwoodBoot
  /-- Returns a signed attestation report (R347). -/
  | getReport
  /-- Installs a context's tenant key (R348). -/
  | setTenantKey
  /-- Returns the identity public key (R348). -/
  | getIdentity
  /-- A lane fails its margin and the link steps down a mode (R351). -/
  | laneMarginFail
  /-- A link down for 50 µs cancels offers with PEER_FAILED and declares its accesses lost (R271). -/
  | linkTimeout
  /-- Firmware retrains a link to mode 0 (R351). -/
  | linkRetrain
  /-- A flit failing its CRC is resent from the replay buffer (R350). -/
  | flitReplay
  /-- A wear monitor's margin is sampled (R362). -/
  | monitorSample
  /-- The patrol scrub reads and corrects a line (R361). -/
  | patrolScrub
  /-- A 10 ms power window adjusts the clock to hold CAP (R364). -/
  | powerCapWindow
  /-- A hot junction forces a clock step down, or a cool one regains a step (R364). -/
  | thermalThrottle
  /-- Overtemperature or overpower stops every core and tears down every queue (R364). -/
  | thermalTrip
  /-- Firmware rewrites the health window mirror (R363). -/
  | healthWindowUpdate
  /-- A fetched word with an unassigned opcode or LEN 11 traps ILLEGAL at every length and in every mode (R99). -/
  | unassignedOpcode
  /-- A global load, store or atomic reaches its vault, host memory or peer part and is performed there (R261). -/
  | globalAccessPerformed
  /-- The data or acknowledgement of a global access returns and writes the load's destination (R129). -/
  | globalAccessReply
  /-- An Ultra Ethernet message arrives on a scale-out port; it is discarded when no context owns its job, and an unsupported delivery mode is answered with a negative acknowledgement (R349). -/
  | ultraEthernetMessage
  /-- A member's core fails, and the collective it takes part in aborts (R257). -/
  | coreFailure
  /-- The host link fails, which starts the 50 µs link timeout for accesses to host memory (R271). -/
  | hostLinkDown
  /-- A scale-up link finishes its step to a lower mode within 30 µs, and the held flits flow again (R351). -/
  | linkStepDone
  deriving DecidableEq, Repr

/-- A module step that is owed, with the data it acts on: one constructor for each row of the opcode table that no
instruction word gives. Its name in Instr is `Owed.instr`; the step being performed stands in State.doing, where the
meaning of that row finds its data. -/
inductive Owed where
  | remoteRequest (q : RemoteReq)
  | remoteReply (p : RemoteRep)
  | offer (ro : Nat) (alt : Nat)
  | claim (ro : Nat) (e : EvKey) (pr : Stamp)
  | grant (e : EvKey) (ro : Nat)
  | revoke (e : EvKey) (ro : Nat)
  | released (ro : Nat) (e : EvKey)
  | release (ro : Nat) (e : EvKey)
  | refuse (e : EvKey) (ro : Nat)
  | commit (c : CommitMsg)
  | withdraw (e : EvKey) (ro : Nat)
  | tilePayload (c : CommitMsg)
  | deadline (e : EvKey)
  | agedSweep (knot : Nat)
  | fullBackoff (ro : Nat) (alt : Nat)
  | budgetExpiry (core : Nat)
  | combiningLineTimeout (core : Nat) (line : Nat)
  | taskDispatch (core : Nat)
  | steal (thief : Nat) (victim : Nat)
  | handlerActivation (e : EvKey)
  | copyJob (job : Nat)
  | jobTranslationResume (job : Nat)
  | collective (e : EvKey)
  | abortColl (e : EvKey)
  | collectiveDeadline (e : EvKey)
  | userRoutine (e : EvKey)
  | userRoutineOverrun (e : EvKey)
  | txeJob (job : Nat)
  | txdJob (job : Nat)
  | vocabJob (job : Nat)
  | pageWalk (die : Nat) (ctx : Nat) (page : Nat)
  | textFrame (ctx : Nat) (process : Nat) (frame : List Byte)
  | tokenChunk (id : Nat)
  | missingFrameTimeout (id : Nat)
  | openNotice (n : Notice)
  | endNotice (id : Nat)
  | dropNotice (id : Nat)
  | detokeniseChunk (e : EvKey)
  | kick (ctx : Nat) (q : Nat) (v : BitVec 64)
  | barWrite (bar : Nat) (word : Nat) (v : BitVec 64)
  | launchAccept (ctx : Nat) (q : Nat)
  | launchStart (l : Nat)
  | launchComplete (l : Nat)
  | reset (ctx : Nat) (q : Nat)
  | ctxCreate (tag : Nat) (desc : List Byte)
  | ctxDestroy (tag : Nat) (ctx : Nat)
  | queueCfg (tag : Nat) (ctx : Nat) (q : Nat) (base : Nat) (lg : Nat) (prio : Nat)
  | launchEnd (tag : Nat) (ctx : Nat) (lid : Nat)
  | textAttach (tag : Nat) (ctx : Nat) (h : Nat) (tok : Nat) (detok : Nat)
  | vocabLoad (tag : Nat) (ctx : Nat) (h : Nat) (va : Nat) (len : Nat)
  | trackStart (tag : Nat) (ctx : Nat)
  | harvest (tag : Nat) (ctx : Nat) (pa : Nat)
  | quiesce (tag : Nat) (ctx : Nat)
  | save (tag : Nat) (ctx : Nat) (pa : Nat)
  | load (tag : Nat) (pa : Nat) (desc : List Byte)
  | resume (tag : Nat) (ctx : Nat)
  | ckpt (tag : Nat) (pa : Nat) (len : Nat) (hold : Bool)
  | ckptLoad (tag : Nat) (pa : Nat) (len : Nat)
  | recover (tag : Nat) (pa : Nat) (len : Nat)
  | trapnext (core : Nat)
  | retry (core : Nat)
  | kill (core : Nat)
  | host (core : Nat)
  | driverRetry (ctx : Nat)
  | driverKill (ctx : Nat)
  | preempt (v : BitVec 64)
  | preemptResume (v : BitVec 64)
  | hclrEcc
  | hclrPoison
  | registerWrite (core : Nat) (csr : BitVec 12) (v : BitVec 64)
  | interrupt (core : Nat)
  | stageEvaluation (die : Nat)
  | graft (rk : RankKey) (core : Nat)
  | placementGeneration
  | packetResend (id : Nat)
  | messageResend (n : Nat)
  | agePromotion (id : Nat)
  | cxlMemWrite (pa : Nat) (bs : List Byte)
  | cxlMemRead (pa : Nat) (n : Nat)
  | barRead (bar : Nat) (off : Nat) (n : Nat)
  | heartwoodBoot (cause : BootCause)
  | getReport (ctx : Nat) (nonce : List Byte)
  | setTenantKey (ctx : Nat) (key : List Byte)
  | getIdentity
  | mctpOther (code : Nat)
  | laneMarginFail (link : Nat) (lane : Nat)
  | linkTimeout (peer : Nat)
  | linkRetrain (link : Nat) (peer : Nat)
  | flitReplay (link : Nat)
  | monitorSample (die : Nat) (mon : Nat) (margin : Nat)
  | patrolScrub (line : Nat) (f : ScrubFind)
  | powerCapWindow (watts : Nat)
  | thermalThrottle (tj : Nat)
  | thermalTrip
  | healthWindowUpdate
  | globalAccessPerformed (core : Nat) (ix : Nat)
  | globalAccessReply (core : Nat) (ix : Nat)
  | ultraEthernetMessage (job : Nat) (process : Nat) (mode : UeMode) (op : UeOp) (bs : List Byte)
  | coreFailure (core : Nat)
  | hostLinkDown
  | linkStepDone (link : Nat)
  deriving DecidableEq, Repr

/-- The row of the opcode table that a step owed belongs to. -/
def Owed.instr : Owed → Instr
  | .remoteRequest .. => .remoteRequest
  | .remoteReply .. => .remoteReply
  | .offer .. => .offer
  | .claim .. => .claim
  | .grant .. => .grant
  | .revoke .. => .revoke
  | .released .. => .released
  | .release .. => .release
  | .refuse .. => .refuse
  | .commit .. => .commit
  | .withdraw .. => .withdraw
  | .tilePayload .. => .tilePayload
  | .deadline .. => .deadline
  | .agedSweep .. => .agedSweep
  | .fullBackoff .. => .fullBackoff
  | .budgetExpiry .. => .budgetExpiry
  | .combiningLineTimeout .. => .combiningLineTimeout
  | .taskDispatch .. => .taskDispatch
  | .steal .. => .steal
  | .handlerActivation .. => .handlerActivation
  | .copyJob .. => .copyJob
  | .jobTranslationResume .. => .jobTranslationResume
  | .collective .. => .collective
  | .abortColl .. => .abortColl
  | .collectiveDeadline .. => .collectiveDeadline
  | .userRoutine .. => .userRoutine
  | .userRoutineOverrun .. => .userRoutineOverrun
  | .txeJob .. => .txeJob
  | .txdJob .. => .txdJob
  | .vocabJob .. => .vocabJob
  | .pageWalk .. => .pageWalk
  | .textFrame .. => .textFrame
  | .tokenChunk .. => .tokenChunk
  | .missingFrameTimeout .. => .missingFrameTimeout
  | .openNotice .. => .openNotice
  | .endNotice .. => .endNotice
  | .dropNotice .. => .dropNotice
  | .detokeniseChunk .. => .detokeniseChunk
  | .kick .. => .kick
  | .barWrite .. => .kick
  | .launchAccept .. => .launchAccept
  | .launchStart .. => .launchStart
  | .launchComplete .. => .launchComplete
  | .reset .. => .reset
  | .ctxCreate .. => .ctxCreate
  | .ctxDestroy .. => .ctxDestroy
  | .queueCfg .. => .queueCfg
  | .launchEnd .. => .launchEnd
  | .textAttach .. => .textAttach
  | .vocabLoad .. => .vocabLoad
  | .trackStart .. => .trackStart
  | .harvest .. => .harvest
  | .quiesce .. => .quiesce
  | .save .. => .save
  | .load .. => .load
  | .resume .. => .resume
  | .ckpt .. => .ckpt
  | .ckptLoad .. => .ckptLoad
  | .recover .. => .recover
  | .trapnext .. => .trapnext
  | .retry .. => .retry
  | .kill .. => .kill
  | .host .. => .host
  | .driverRetry .. => .retry
  | .driverKill .. => .kill
  | .preempt .. => .preempt
  | .preemptResume .. => .preemptResume
  | .hclrEcc => .hclrEcc
  | .hclrPoison => .hclrPoison
  | .registerWrite .. => .registerWrite
  | .interrupt .. => .interrupt
  | .stageEvaluation .. => .stageEvaluation
  | .graft .. => .graft
  | .placementGeneration => .placementGeneration
  | .packetResend .. => .packetResend
  | .messageResend .. => .packetResend
  | .agePromotion .. => .agePromotion
  | .cxlMemWrite .. => .cxlMemWrite
  | .cxlMemRead .. => .cxlMemRead
  | .barRead .. => .cxlMemRead
  | .heartwoodBoot .. => .heartwoodBoot
  | .getReport .. => .getReport
  | .setTenantKey .. => .setTenantKey
  | .getIdentity => .getIdentity
  | .mctpOther .. => .getReport
  | .laneMarginFail .. => .laneMarginFail
  | .linkTimeout .. => .linkTimeout
  | .linkRetrain .. => .linkRetrain
  | .flitReplay .. => .flitReplay
  | .monitorSample .. => .monitorSample
  | .patrolScrub .. => .patrolScrub
  | .powerCapWindow .. => .powerCapWindow
  | .thermalThrottle .. => .thermalThrottle
  | .thermalTrip => .thermalTrip
  | .healthWindowUpdate => .healthWindowUpdate
  | .globalAccessPerformed .. => .globalAccessPerformed
  | .globalAccessReply .. => .globalAccessReply
  | .ultraEthernetMessage .. => .ultraEthernetMessage
  | .coreFailure .. => .coreFailure
  | .hostLinkDown => .hostLinkDown
  | .linkStepDone .. => .linkStepDone

end Sys2Proof
end

