-- ==== Sys2Proof/WellFormed.lean ====
section
/-! DEFINITION. When an instruction is well formed: the guard is one its opcode allows (R91, R97), and every immediate
field holds a value its description accepts at decode (R100 step 6). -/

namespace Sys2Proof

/-- Whether the opcode map marks the instruction's opcode G (R97); a module step has no guard. -/
def Instr.guardable : Instr → Bool
  | .add ..  => false
  | .sub ..  => false
  | .and ..  => false
  | .or ..  => false
  | .xor ..  => false
  | .andn ..  => false
  | .shl ..  => false
  | .shr ..  => false
  | .sar ..  => false
  | .ror ..  => false
  | .min ..  => false
  | .max ..  => false
  | .minu ..  => false
  | .maxu ..  => false
  | .mul ..  => false
  | .mulh ..  => false
  | .mulhu ..  => false
  | .div ..  => false
  | .divu ..  => false
  | .rem ..  => false
  | .remu ..  => false
  | .addw ..  => false
  | .subw ..  => false
  | .mulw ..  => false
  | .clz ..  => false
  | .ctz ..  => false
  | .popc ..  => false
  | .bswap ..  => false
  | .sext ..  => false
  | .zext ..  => false
  | .bfx ..  => false
  | .bfi ..  => false
  | .addi ..  => false
  | .andi ..  => false
  | .ori ..  => false
  | .xori ..  => false
  | .shli ..  => false
  | .shri ..  => false
  | .sari ..  => false
  | .rori ..  => false
  | .mini ..  => false
  | .maxi ..  => false
  | .addwi ..  => false
  | .movl ..  => false
  | .pcrel ..  => false
  | .cmp ..  => false
  | .cmpi ..  => false
  | .pand ..  => false
  | .por ..  => false
  | .pxor ..  => false
  | .pandn ..  => false
  | .pnot ..  => false
  | .pmov ..  => false
  | .pset ..  => false
  | .sel ..  => false
  | .csrr ..  => false
  | .csrw ..  => false
  | .csrs ..  => false
  | .csrc ..  => false
  | .b ..  => false
  | .bp ..  => false
  | .jmp ..  => false
  | .jal ..  => false
  | .jalr ..  => false
  | .loop ..  => false
  | .gset ..  => false
  | .gkill ..  => false
  | .qput ..  => false
  | .qget ..  => false
  | .ld ..  => false
  | .ldAq ..  => false
  | .st ..  => false
  | .stRl ..  => false
  | .lds ..  => false
  | .sts ..  => false
  | .ldx ..  => false
  | .stx ..  => false
  | .stxT ..  => false
  | .amoAdd ..  => false
  | .amoAnd ..  => false
  | .amoOr ..  => false
  | .amoXor ..  => false
  | .amoMin ..  => false
  | .amoMax ..  => false
  | .amoMinu ..  => false
  | .amoMaxu ..  => false
  | .amoSwap ..  => false
  | .cas ..  => false
  | .amoxAdd ..  => false
  | .amoxAnd ..  => false
  | .amoxOr ..  => false
  | .amoxXor ..  => false
  | .amoxMin ..  => false
  | .amoxMax ..  => false
  | .amoxMinu ..  => false
  | .amoxMaxu ..  => false
  | .amoxSwap ..  => false
  | .fence ..  => false
  | .pref ..  => false
  | .prefSt ..  => false
  | .mcst ..  => false
  | .winset ..  => false
  | .winclr ..  => false
  | .evw ..  => false
  | .evt ..  => false
  | .chooseW ..  => false
  | .chooseT ..  => false
  | .signal ..  => false
  | .armReg ..  => false
  | .armImm ..  => false
  | .spawn ..  => false
  | .endTask ..  => false
  | .yield ..  => false
  | .bind ..  => false
  | .unbind ..  => false
  | .evseq ..  => false
  | .vadd ..  => true
  | .vsub ..  => true
  | .vmul ..  => true
  | .vmulh ..  => true
  | .vmin ..  => true
  | .vmax ..  => true
  | .vminu ..  => true
  | .vmaxu ..  => true
  | .vand ..  => true
  | .vor ..  => true
  | .vxor ..  => true
  | .vandn ..  => true
  | .vshl ..  => true
  | .vshr ..  => true
  | .vsar ..  => true
  | .vabs ..  => true
  | .vneg ..  => true
  | .vaddi ..  => true
  | .vsubi ..  => true
  | .vmini ..  => true
  | .vmaxi ..  => true
  | .vminui ..  => true
  | .vmaxui ..  => true
  | .vandi ..  => true
  | .vori ..  => true
  | .vxori ..  => true
  | .vandni ..  => true
  | .vshli ..  => true
  | .vshri ..  => true
  | .vsari ..  => true
  | .vfadd ..  => true
  | .vfsub ..  => true
  | .vfmul ..  => true
  | .vfdiv ..  => true
  | .vfmin ..  => true
  | .vfmax ..  => true
  | .vfsqrt ..  => true
  | .vfabs ..  => true
  | .vfneg ..  => true
  | .vfex2 ..  => true
  | .vflg2 ..  => true
  | .vfma ..  => true
  | .vfms ..  => true
  | .vfnma ..  => true
  | .vcmp ..  => true
  | .vsel ..  => true
  | .vperm ..  => true
  | .vsplat ..  => true
  | .vext ..  => true
  | .vins ..  => true
  | .vcvt ..  => true
  | .vld ..  => true
  | .vst ..  => true
  | .vlds ..  => true
  | .vsts ..  => true
  | .vgath ..  => true
  | .vscat ..  => true
  | .vhadd ..  => true
  | .mand ..  => true
  | .mor ..  => true
  | .mxor ..  => true
  | .mnot ..  => true
  | .mset ..  => true
  | .vxg ..  => true
  | .gangOn ..  => false
  | .gangOff ..  => false
  | .vmov ..  => true
  | .vmovg ..  => true
  | .tcfg ..  => false
  | .tld ..  => true
  | .tst ..  => true
  | .tzero ..  => true
  | .mma ..  => true
  | .czero ..  => true
  | .cld ..  => true
  | .cst ..  => true
  | .cdrainWAdd ..  => false
  | .cdrainWMov ..  => false
  | .cdrainTAdd ..  => false
  | .cdrainTMov ..  => false
  | .crecvW ..  => false
  | .crecvT ..  => false
  | .ccvt ..  => true
  | .ttr ..  => true
  | .mxr ..  => false
  | .mxclr ..  => false
  | .skinit ..  => true
  | .skqadd ..  => true
  | .skhadd ..  => true
  | .skdadd ..  => true
  | .skmadd ..  => true
  | .skmerge ..  => true
  | .skquant ..  => false
  | .sktopk ..  => false
  | .skcard ..  => false
  | .skmom ..  => false
  | .cpy ..  => true
  | .cpyT ..  => true
  | .cpysk ..  => true
  | .coll ..  => true
  | .txe ..  => true
  | .txd ..  => true
  | .vocab ..  => false
  | .trap ..  => false
  | .brk ..  => false
  | .eret ..  => false
  | .xlinv ..  => false
  | .xlinvCtx ..  => false
  | .xlinvVa ..  => false
  | .ctxsave ..  => false
  | .ctxload ..  => false
  | .knotopRd ..  => false
  | .knotopWr ..  => false
  | .knotopPurge ..  => false
  | .knotopCancel ..  => false
  | .idle ..  => false
  | .nop => false
  | .nopX => false
  | .nopL => false
  | .remoteRequest => false
  | .remoteReply => false
  | .offer => false
  | .claim => false
  | .grant => false
  | .revoke => false
  | .released => false
  | .release => false
  | .refuse => false
  | .commit => false
  | .withdraw => false
  | .tilePayload => false
  | .deadline => false
  | .agedSweep => false
  | .fullBackoff => false
  | .budgetExpiry => false
  | .combiningLineTimeout => false
  | .taskDispatch => false
  | .steal => false
  | .handlerActivation => false
  | .copyJob => false
  | .jobTranslationResume => false
  | .collective => false
  | .abortColl => false
  | .collectiveDeadline => false
  | .userRoutine => false
  | .userRoutineOverrun => false
  | .txeJob => false
  | .txdJob => false
  | .vocabJob => false
  | .pageWalk => false
  | .textFrame => false
  | .tokenChunk => false
  | .missingFrameTimeout => false
  | .openNotice => false
  | .endNotice => false
  | .dropNotice => false
  | .detokeniseChunk => false
  | .kick => false
  | .launchAccept => false
  | .launchStart => false
  | .launchComplete => false
  | .reset => false
  | .ctxCreate => false
  | .ctxDestroy => false
  | .queueCfg => false
  | .launchEnd => false
  | .textAttach => false
  | .vocabLoad => false
  | .trackStart => false
  | .harvest => false
  | .quiesce => false
  | .save => false
  | .load => false
  | .resume => false
  | .ckpt => false
  | .ckptLoad => false
  | .recover => false
  | .trapnext => false
  | .retry => false
  | .kill => false
  | .host => false
  | .preempt => false
  | .preemptResume => false
  | .hclrEcc => false
  | .hclrPoison => false
  | .registerWrite => false
  | .interrupt => false
  | .stageEvaluation => false
  | .graft => false
  | .placementGeneration => false
  | .packetResend => false
  | .agePromotion => false
  | .cxlMemWrite => false
  | .cxlMemRead => false
  | .heartwoodBoot => false
  | .getReport => false
  | .setTenantKey => false
  | .getIdentity => false
  | .laneMarginFail => false
  | .linkTimeout => false
  | .linkRetrain => false
  | .flitReplay => false
  | .monitorSample => false
  | .patrolScrub => false
  | .powerCapWindow => false
  | .thermalThrottle => false
  | .thermalTrip => false
  | .healthWindowUpdate => false
  | .unassignedOpcode => false
  | .globalAccessPerformed => false
  | .globalAccessReply => false
  | .ultraEthernetMessage => false
  | .coreFailure => false
  | .hostLinkDown => false
  | .linkStepDone => false

/-- The header of an instruction that has one (NOPs reserve theirs, R127; module steps have none). -/
def Instr.hdr? : Instr → Option Hdr
  | .add h .. => some h
  | .sub h .. => some h
  | .and h .. => some h
  | .or h .. => some h
  | .xor h .. => some h
  | .andn h .. => some h
  | .shl h .. => some h
  | .shr h .. => some h
  | .sar h .. => some h
  | .ror h .. => some h
  | .min h .. => some h
  | .max h .. => some h
  | .minu h .. => some h
  | .maxu h .. => some h
  | .mul h .. => some h
  | .mulh h .. => some h
  | .mulhu h .. => some h
  | .div h .. => some h
  | .divu h .. => some h
  | .rem h .. => some h
  | .remu h .. => some h
  | .addw h .. => some h
  | .subw h .. => some h
  | .mulw h .. => some h
  | .clz h .. => some h
  | .ctz h .. => some h
  | .popc h .. => some h
  | .bswap h .. => some h
  | .sext h .. => some h
  | .zext h .. => some h
  | .bfx h .. => some h
  | .bfi h .. => some h
  | .addi h .. => some h
  | .andi h .. => some h
  | .ori h .. => some h
  | .xori h .. => some h
  | .shli h .. => some h
  | .shri h .. => some h
  | .sari h .. => some h
  | .rori h .. => some h
  | .mini h .. => some h
  | .maxi h .. => some h
  | .addwi h .. => some h
  | .movl h .. => some h
  | .pcrel h .. => some h
  | .cmp h .. => some h
  | .cmpi h .. => some h
  | .pand h .. => some h
  | .por h .. => some h
  | .pxor h .. => some h
  | .pandn h .. => some h
  | .pnot h .. => some h
  | .pmov h .. => some h
  | .pset h .. => some h
  | .sel h .. => some h
  | .csrr h .. => some h
  | .csrw h .. => some h
  | .csrs h .. => some h
  | .csrc h .. => some h
  | .b h .. => some h
  | .bp h .. => some h
  | .jmp h .. => some h
  | .jal h .. => some h
  | .jalr h .. => some h
  | .loop h .. => some h
  | .gset h .. => some h
  | .gkill h .. => some h
  | .qput h .. => some h
  | .qget h .. => some h
  | .ld h .. => some h
  | .ldAq h .. => some h
  | .st h .. => some h
  | .stRl h .. => some h
  | .lds h .. => some h
  | .sts h .. => some h
  | .ldx h .. => some h
  | .stx h .. => some h
  | .stxT h .. => some h
  | .amoAdd h .. => some h
  | .amoAnd h .. => some h
  | .amoOr h .. => some h
  | .amoXor h .. => some h
  | .amoMin h .. => some h
  | .amoMax h .. => some h
  | .amoMinu h .. => some h
  | .amoMaxu h .. => some h
  | .amoSwap h .. => some h
  | .cas h .. => some h
  | .amoxAdd h .. => some h
  | .amoxAnd h .. => some h
  | .amoxOr h .. => some h
  | .amoxXor h .. => some h
  | .amoxMin h .. => some h
  | .amoxMax h .. => some h
  | .amoxMinu h .. => some h
  | .amoxMaxu h .. => some h
  | .amoxSwap h .. => some h
  | .fence h .. => some h
  | .pref h .. => some h
  | .prefSt h .. => some h
  | .mcst h .. => some h
  | .winset h .. => some h
  | .winclr h .. => some h
  | .evw h .. => some h
  | .evt h .. => some h
  | .chooseW h .. => some h
  | .chooseT h .. => some h
  | .signal h .. => some h
  | .armReg h .. => some h
  | .armImm h .. => some h
  | .spawn h .. => some h
  | .endTask h => some h
  | .yield h .. => some h
  | .bind h .. => some h
  | .unbind h .. => some h
  | .evseq h .. => some h
  | .vadd h .. => some h
  | .vsub h .. => some h
  | .vmul h .. => some h
  | .vmulh h .. => some h
  | .vmin h .. => some h
  | .vmax h .. => some h
  | .vminu h .. => some h
  | .vmaxu h .. => some h
  | .vand h .. => some h
  | .vor h .. => some h
  | .vxor h .. => some h
  | .vandn h .. => some h
  | .vshl h .. => some h
  | .vshr h .. => some h
  | .vsar h .. => some h
  | .vabs h .. => some h
  | .vneg h .. => some h
  | .vaddi h .. => some h
  | .vsubi h .. => some h
  | .vmini h .. => some h
  | .vmaxi h .. => some h
  | .vminui h .. => some h
  | .vmaxui h .. => some h
  | .vandi h .. => some h
  | .vori h .. => some h
  | .vxori h .. => some h
  | .vandni h .. => some h
  | .vshli h .. => some h
  | .vshri h .. => some h
  | .vsari h .. => some h
  | .vfadd h .. => some h
  | .vfsub h .. => some h
  | .vfmul h .. => some h
  | .vfdiv h .. => some h
  | .vfmin h .. => some h
  | .vfmax h .. => some h
  | .vfsqrt h .. => some h
  | .vfabs h .. => some h
  | .vfneg h .. => some h
  | .vfex2 h .. => some h
  | .vflg2 h .. => some h
  | .vfma h .. => some h
  | .vfms h .. => some h
  | .vfnma h .. => some h
  | .vcmp h .. => some h
  | .vsel h .. => some h
  | .vperm h .. => some h
  | .vsplat h .. => some h
  | .vext h .. => some h
  | .vins h .. => some h
  | .vcvt h .. => some h
  | .vld h .. => some h
  | .vst h .. => some h
  | .vlds h .. => some h
  | .vsts h .. => some h
  | .vgath h .. => some h
  | .vscat h .. => some h
  | .vhadd h .. => some h
  | .mand h .. => some h
  | .mor h .. => some h
  | .mxor h .. => some h
  | .mnot h .. => some h
  | .mset h .. => some h
  | .vxg h .. => some h
  | .gangOn h => some h
  | .gangOff h => some h
  | .vmov h .. => some h
  | .vmovg h .. => some h
  | .tcfg h .. => some h
  | .tld h .. => some h
  | .tst h .. => some h
  | .tzero h .. => some h
  | .mma h .. => some h
  | .czero h .. => some h
  | .cld h .. => some h
  | .cst h .. => some h
  | .cdrainWAdd h .. => some h
  | .cdrainWMov h .. => some h
  | .cdrainTAdd h .. => some h
  | .cdrainTMov h .. => some h
  | .crecvW h .. => some h
  | .crecvT h .. => some h
  | .ccvt h .. => some h
  | .ttr h .. => some h
  | .mxr h .. => some h
  | .mxclr h .. => some h
  | .skinit h .. => some h
  | .skqadd h .. => some h
  | .skhadd h .. => some h
  | .skdadd h .. => some h
  | .skmadd h .. => some h
  | .skmerge h .. => some h
  | .skquant h .. => some h
  | .sktopk h .. => some h
  | .skcard h .. => some h
  | .skmom h .. => some h
  | .cpy h .. => some h
  | .cpyT h .. => some h
  | .cpysk h .. => some h
  | .coll h .. => some h
  | .txe h .. => some h
  | .txd h .. => some h
  | .vocab h .. => some h
  | .trap h .. => some h
  | .brk h .. => some h
  | .eret h => some h
  | .xlinv h => some h
  | .xlinvCtx h .. => some h
  | .xlinvVa h .. => some h
  | .ctxsave h .. => some h
  | .ctxload h .. => some h
  | .knotopRd h .. => some h
  | .knotopWr h .. => some h
  | .knotopPurge h .. => some h
  | .knotopCancel h .. => some h
  | .idle h => some h
  | .nop => none
  | .nopX => none
  | .nopL => none
  | .remoteRequest => none
  | .remoteReply => none
  | .offer => none
  | .claim => none
  | .grant => none
  | .revoke => none
  | .released => none
  | .release => none
  | .refuse => none
  | .commit => none
  | .withdraw => none
  | .tilePayload => none
  | .deadline => none
  | .agedSweep => none
  | .fullBackoff => none
  | .budgetExpiry => none
  | .combiningLineTimeout => none
  | .taskDispatch => none
  | .steal => none
  | .handlerActivation => none
  | .copyJob => none
  | .jobTranslationResume => none
  | .collective => none
  | .abortColl => none
  | .collectiveDeadline => none
  | .userRoutine => none
  | .userRoutineOverrun => none
  | .txeJob => none
  | .txdJob => none
  | .vocabJob => none
  | .pageWalk => none
  | .textFrame => none
  | .tokenChunk => none
  | .missingFrameTimeout => none
  | .openNotice => none
  | .endNotice => none
  | .dropNotice => none
  | .detokeniseChunk => none
  | .kick => none
  | .launchAccept => none
  | .launchStart => none
  | .launchComplete => none
  | .reset => none
  | .ctxCreate => none
  | .ctxDestroy => none
  | .queueCfg => none
  | .launchEnd => none
  | .textAttach => none
  | .vocabLoad => none
  | .trackStart => none
  | .harvest => none
  | .quiesce => none
  | .save => none
  | .load => none
  | .resume => none
  | .ckpt => none
  | .ckptLoad => none
  | .recover => none
  | .trapnext => none
  | .retry => none
  | .kill => none
  | .host => none
  | .preempt => none
  | .preemptResume => none
  | .hclrEcc => none
  | .hclrPoison => none
  | .registerWrite => none
  | .interrupt => none
  | .stageEvaluation => none
  | .graft => none
  | .placementGeneration => none
  | .packetResend => none
  | .agePromotion => none
  | .cxlMemWrite => none
  | .cxlMemRead => none
  | .heartwoodBoot => none
  | .getReport => none
  | .setTenantKey => none
  | .getIdentity => none
  | .laneMarginFail => none
  | .linkTimeout => none
  | .linkRetrain => none
  | .flitReplay => none
  | .monitorSample => none
  | .patrolScrub => none
  | .powerCapWindow => none
  | .thermalThrottle => none
  | .thermalTrip => none
  | .healthWindowUpdate => none
  | .unassignedOpcode => none
  | .globalAccessPerformed => none
  | .globalAccessReply => none
  | .ultraEthernetMessage => none
  | .coreFailure => none
  | .hostLinkDown => none
  | .linkStepDone => none

/-- A guard stands only where the opcode allows one (R91). -/
def Instr.guardOk (i : Instr) : Bool :=
  match i.hdr? with
  | some h => h.guard.isNone || i.guardable
  | none => true

/-- Lane width in bytes (R170). -/
def Lane.bytes : Lane → Nat
  | .b => 1 | .h => 2 | .w => 4 | .d => 8
/-- Lane count of a 128-bit vector (R170). -/
def Lane.count (l : Lane) : Nat := 16 / l.bytes
/-- Floating lane types of VCMP and VHADD. -/
def VTy.isFloat : VTy → Bool
  | .f32 | .bf16 | .f16 => true
  | .b | .h | .w | .d => false
/-- Element sizes of the conversion types (R181). -/
def CvtTy.bytes : CvtTy → Nat
  | .e4m3 | .e5m2 | .i8 => 1
  | .bf16 | .f16 => 2
  | .f32 | .i32 => 4
/-- The two 8-bit floating formats. -/
def CvtTy.isFp8 : CvtTy → Bool
  | .e4m3 | .e5m2 => true
  | .bf16 | .f16 | .f32 | .i8 | .i32 => false
/-- RDN and RUP do not convert into E4M3 or E5M2, and .INF is for E5M2 only (R46, R181, R200). Both are refused at decode,
whatever the qualifier: R46 says at dispatch, and the fields alone decide it (DEDUCED, log 18). -/
def cvtOk (dst : CvtTy) (rnd : Rnd) (inf : BitVec 1) : Bool :=
  !(dst.isFp8 && (rnd == .rdn || rnd == .rup)) && (inf == 0#1 || dst == .e5m2)
/-- The PART field of VCVT stays below the size ratio (R181). -/
def partOk (src dst : CvtTy) (part : BitVec 2) : Bool :=
  part.toNat < max (src.bytes / dst.bytes) (max (dst.bytes / src.bytes) 1)
/-- n of SEXT and ZEXT (R109). -/
def extOk (n : BitVec 7) : Bool := 1 ≤ n.toNat && n.toNat ≤ 64
/-- lsb and width of BFX and BFI (R109). -/
def fieldOk (lsb : BitVec 6) (width : BitVec 7) : Bool :=
  1 ≤ width.toNat && width.toNat ≤ 64 && lsb.toNat + width.toNat ≤ 64
/-- The immediate of a VINTI op that is no shift (R174). -/
def vimmOk (l : Lane) (imm : BitVec 16) : Bool := l != .b || imm.toNat < 256
/-- The count of a VINTI shift (R174). -/
def vcountOk (l : Lane) (imm : BitVec 16) : Bool := imm.toNat < 8 * l.bytes
/-- The offset of VXG lies from −3 to +3, as a signed 4-bit field (R188). -/
def vxgOk (ix : BitVec 4) : Bool := -3 ≤ ix.toInt && ix.toInt ≤ 3

/-- The value checks of R100 step 6 and the operand restrictions of the instruction chapters; the rounding modes of
conversions into E4M3 and E5M2 are among them, whatever the qualifier (DEDUCED, log 18). -/
def Instr.valuesOk : Instr → Bool
  | .add .. => true
  | .sub .. => true
  | .and .. => true
  | .or .. => true
  | .xor .. => true
  | .andn .. => true
  | .shl .. => true
  | .shr .. => true
  | .sar .. => true
  | .ror .. => true
  | .min .. => true
  | .max .. => true
  | .minu .. => true
  | .maxu .. => true
  | .mul .. => true
  | .mulh .. => true
  | .mulhu .. => true
  | .div .. => true
  | .divu .. => true
  | .rem .. => true
  | .remu .. => true
  | .addw .. => true
  | .subw .. => true
  | .mulw .. => true
  | .clz .. => true
  | .ctz .. => true
  | .popc .. => true
  | .bswap .. => true
  | .sext _ _ _ n => extOk n
  | .zext _ _ _ n => extOk n
  | .bfx _ _ _ lsb width => fieldOk lsb width
  | .bfi _ _ _ lsb width => fieldOk lsb width
  | .addi .. => true
  | .andi .. => true
  | .ori .. => true
  | .xori .. => true
  | .shli .. => true
  | .shri .. => true
  | .sari .. => true
  | .rori .. => true
  | .mini .. => true
  | .maxi .. => true
  | .addwi .. => true
  | .movl .. => true
  | .pcrel .. => true
  | .cmp .. => true
  | .cmpi .. => true
  | .pand .. => true
  | .por .. => true
  | .pxor .. => true
  | .pandn .. => true
  | .pnot .. => true
  | .pmov .. => true
  | .pset .. => true
  | .sel .. => true
  | .csrr .. => true
  | .csrw .. => true
  | .csrs .. => true
  | .csrc .. => true
  | .b .. => true
  | .bp .. => true
  | .jmp .. => true
  | .jal .. => true
  | .jalr .. => true
  | .loop .. => true
  | .gset .. => true
  | .gkill .. => true
  | .qput .. => true
  | .qget .. => true
  | .ld .. => true
  | .ldAq .. => true
  | .st .. => true
  | .stRl .. => true
  | .lds .. => true
  | .sts .. => true
  | .ldx _ buf _ _ _ _ _ => buf != .c
  | .stx _ buf _ _ _ _ _ => buf != .c
  | .stxT _ buf _ _ _ _ _ => buf != .c
  | .amoAdd .. => true
  | .amoAnd .. => true
  | .amoOr .. => true
  | .amoXor .. => true
  | .amoMin .. => true
  | .amoMax .. => true
  | .amoMinu .. => true
  | .amoMaxu .. => true
  | .amoSwap .. => true
  | .cas .. => true
  | .amoxAdd _ buf _ _ _ _ _ _ => buf != .c
  | .amoxAnd _ buf _ _ _ _ _ _ => buf != .c
  | .amoxOr _ buf _ _ _ _ _ _ => buf != .c
  | .amoxXor _ buf _ _ _ _ _ _ => buf != .c
  | .amoxMin _ buf _ _ _ _ _ _ => buf != .c
  | .amoxMax _ buf _ _ _ _ _ _ => buf != .c
  | .amoxMinu _ buf _ _ _ _ _ _ => buf != .c
  | .amoxMaxu _ buf _ _ _ _ _ _ => buf != .c
  | .amoxSwap _ buf _ _ _ _ _ _ => buf != .c
  | .fence .. => true
  | .pref .. => true
  | .prefSt .. => true
  | .mcst _ buf _ _ _ _ _ => buf != .c
  | .winset .. => true
  | .winclr .. => true
  | .evw .. => true
  | .evt .. => true
  | .chooseW _ n _ _ _ => 1 ≤ n.toNat && n.toNat ≤ 8
  | .chooseT _ n _ _ => 1 ≤ n.toNat && n.toNat ≤ 8
  | .signal .. => true
  | .armReg .. => true
  | .armImm _ _ _ n => n != 0#16
  | .spawn .. => true
  | .endTask .. => true
  | .yield .. => true
  | .bind _ _ _ _ depth => depth != 0#16
  | .unbind .. => true
  | .evseq .. => true
  | .vadd .. => true
  | .vsub .. => true
  | .vmul .. => true
  | .vmulh .. => true
  | .vmin .. => true
  | .vmax .. => true
  | .vminu .. => true
  | .vmaxu .. => true
  | .vand .. => true
  | .vor .. => true
  | .vxor .. => true
  | .vandn .. => true
  | .vshl .. => true
  | .vshr .. => true
  | .vsar .. => true
  | .vabs .. => true
  | .vneg .. => true
  | .vaddi _ l _ _ imm _ => vimmOk l imm
  | .vsubi _ l _ _ imm _ => vimmOk l imm
  | .vmini _ l _ _ imm _ => vimmOk l imm
  | .vmaxi _ l _ _ imm _ => vimmOk l imm
  | .vminui _ l _ _ imm _ => vimmOk l imm
  | .vmaxui _ l _ _ imm _ => vimmOk l imm
  | .vandi _ l _ _ imm _ => vimmOk l imm
  | .vori _ l _ _ imm _ => vimmOk l imm
  | .vxori _ l _ _ imm _ => vimmOk l imm
  | .vandni _ l _ _ imm _ => vimmOk l imm
  | .vshli _ l _ _ imm _ => vcountOk l imm
  | .vshri _ l _ _ imm _ => vcountOk l imm
  | .vsari _ l _ _ imm _ => vcountOk l imm
  | .vfadd .. => true
  | .vfsub .. => true
  | .vfmul .. => true
  | .vfdiv .. => true
  | .vfmin .. => true
  | .vfmax .. => true
  | .vfsqrt .. => true
  | .vfabs .. => true
  | .vfneg .. => true
  | .vfex2 .. => true
  | .vflg2 .. => true
  | .vfma .. => true
  | .vfms .. => true
  | .vfnma .. => true
  | .vcmp _ cond t _ _ _ _ => !(t.isFloat && (cond == .ltu || cond == .geu))
  | .vsel .. => true
  | .vperm .. => true
  | .vsplat .. => true
  | .vext _ l _ _ ix => ix.toNat < l.count
  | .vins _ l _ _ ix _ => ix.toNat < l.count
  | .vcvt _ src dst part rnd inf _ _ _ _ _ _ => src != dst && partOk src dst part && cvtOk dst rnd inf
  | .vld .. => true
  | .vst .. => true
  | .vlds .. => true
  | .vsts .. => true
  | .vgath _ _ l _ _ _ _ _ => l != .d
  | .vscat _ _ l _ _ _ _ _ => l != .d
  | .vhadd _ t rnd _ _ _ => t.isFloat || rnd == .rne
  | .mand .. => true
  | .mor .. => true
  | .mxor .. => true
  | .mnot .. => true
  | .mset .. => true
  | .vxg _ _ _ ix _ => vxgOk ix
  | .gangOn .. => true
  | .gangOff .. => true
  | .vmov .. => true
  | .vmovg .. => true
  | .tcfg .. => true
  | .tld .. => true
  | .tst _ mem _ _ _ _ _ => mem != .w
  | .tzero .. => true
  | .mma .. => true
  | .czero .. => true
  | .cld .. => true
  | .cst .. => true
  | .cdrainWAdd .. => true
  | .cdrainWMov .. => true
  | .cdrainTAdd .. => true
  | .cdrainTMov .. => true
  | .crecvW .. => true
  | .crecvT .. => true
  | .ccvt _ dst rnd inf _ _ _ _ _ _ => dst != .i32 && cvtOk dst rnd inf
  | .ttr .. => true
  | .mxr .. => true
  | .mxclr .. => true
  | .skinit .. => true
  | .skqadd .. => true
  | .skhadd .. => true
  | .skdadd .. => true
  | .skmadd .. => true
  | .skmerge .. => true
  | .skquant .. => true
  | .sktopk .. => true
  | .skcard .. => true
  | .skmom .. => true
  | .cpy .. => true
  | .cpyT .. => true
  | .cpysk .. => true
  | .coll .. => true
  | .txe .. => true
  | .txd .. => true
  | .vocab .. => true
  | .trap .. => true
  | .brk .. => true
  | .eret .. => true
  | .xlinv .. => true
  | .xlinvCtx .. => true
  | .xlinvVa .. => true
  | .ctxsave .. => true
  | .ctxload .. => true
  | .knotopRd .. => true
  | .knotopWr .. => true
  | .knotopPurge .. => true
  | .knotopCancel .. => true
  | .idle .. => true
  | .nop => true
  | .nopX => true
  | .nopL => true
  | .remoteRequest => true
  | .remoteReply => true
  | .offer => true
  | .claim => true
  | .grant => true
  | .revoke => true
  | .released => true
  | .release => true
  | .refuse => true
  | .commit => true
  | .withdraw => true
  | .tilePayload => true
  | .deadline => true
  | .agedSweep => true
  | .fullBackoff => true
  | .budgetExpiry => true
  | .combiningLineTimeout => true
  | .taskDispatch => true
  | .steal => true
  | .handlerActivation => true
  | .copyJob => true
  | .jobTranslationResume => true
  | .collective => true
  | .abortColl => true
  | .collectiveDeadline => true
  | .userRoutine => true
  | .userRoutineOverrun => true
  | .txeJob => true
  | .txdJob => true
  | .vocabJob => true
  | .pageWalk => true
  | .textFrame => true
  | .tokenChunk => true
  | .missingFrameTimeout => true
  | .openNotice => true
  | .endNotice => true
  | .dropNotice => true
  | .detokeniseChunk => true
  | .kick => true
  | .launchAccept => true
  | .launchStart => true
  | .launchComplete => true
  | .reset => true
  | .ctxCreate => true
  | .ctxDestroy => true
  | .queueCfg => true
  | .launchEnd => true
  | .textAttach => true
  | .vocabLoad => true
  | .trackStart => true
  | .harvest => true
  | .quiesce => true
  | .save => true
  | .load => true
  | .resume => true
  | .ckpt => true
  | .ckptLoad => true
  | .recover => true
  | .trapnext => true
  | .retry => true
  | .kill => true
  | .host => true
  | .preempt => true
  | .preemptResume => true
  | .hclrEcc => true
  | .hclrPoison => true
  | .registerWrite => true
  | .interrupt => true
  | .stageEvaluation => true
  | .graft => true
  | .placementGeneration => true
  | .packetResend => true
  | .agePromotion => true
  | .cxlMemWrite => true
  | .cxlMemRead => true
  | .heartwoodBoot => true
  | .getReport => true
  | .setTenantKey => true
  | .getIdentity => true
  | .laneMarginFail => true
  | .linkTimeout => true
  | .linkRetrain => true
  | .flitReplay => true
  | .monitorSample => true
  | .patrolScrub => true
  | .powerCapWindow => true
  | .thermalThrottle => true
  | .thermalTrip => true
  | .healthWindowUpdate => true
  | .unassignedOpcode => true
  | .globalAccessPerformed => true
  | .globalAccessReply => true
  | .ultraEthernetMessage => true
  | .coreFailure => true
  | .hostLinkDown => true
  | .linkStepDone => true

/-- A well-formed instruction. -/
def WellFormed (i : Instr) : Bool := i.guardOk && i.valuesOk

end Sys2Proof
end

