-- ==== Sys2Proof/Decode.lean ====
section
/-! DEFINITION. Instruction words: fields (R90 to R96), the decoder with its refusals by name (R97 to R100), and the
encoder. The decoder reads a candidate instruction from the fields the opcode map uses and accepts it only when the
encoder gives back exactly the word: so every reserved bit is zero, every register field names a register of its
file, and every code is an assigned one, whichever field it is (R95, R97). -/

namespace Sys2Proof

/-- The code of a Cond (R97). -/
def Cond.code : Cond → Nat
  | .eq => 0
  | .ne => 1
  | .lt => 2
  | .ge => 3
  | .ltu => 4
  | .geu => 5
/-- The Cond of a code; a code that is not assigned gives some Cond whose own code differs, which the decoder refuses. -/
def Cond.ofCode : Nat → Cond
  | 0 => .eq
  | 1 => .ne
  | 2 => .lt
  | 3 => .ge
  | 4 => .ltu
  | _ => .geu
/-- The code of a LdW (R97). -/
def LdW.code : LdW → Nat
  | .b => 0
  | .bu => 1
  | .h => 2
  | .hu => 3
  | .w => 4
  | .wu => 5
  | .d => 6
/-- The LdW of a code; a code that is not assigned gives some LdW whose own code differs, which the decoder refuses. -/
def LdW.ofCode : Nat → LdW
  | 0 => .b
  | 1 => .bu
  | 2 => .h
  | 3 => .hu
  | 4 => .w
  | 5 => .wu
  | _ => .d
/-- The code of a StW (R97). -/
def StW.code : StW → Nat
  | .b => 0
  | .h => 1
  | .w => 2
  | .d => 3
/-- The StW of a code; a code that is not assigned gives some StW whose own code differs, which the decoder refuses. -/
def StW.ofCode : Nat → StW
  | 0 => .b
  | 1 => .h
  | 2 => .w
  | _ => .d
/-- The code of a McW (R97). -/
def McW.code : McW → Nat
  | .b => 0
  | .h => 1
  | .w => 2
  | .d => 3
  | .q => 4
/-- The McW of a code; a code that is not assigned gives some McW whose own code differs, which the decoder refuses. -/
def McW.ofCode : Nat → McW
  | 0 => .b
  | 1 => .h
  | 2 => .w
  | 3 => .d
  | _ => .q
/-- The code of a Buf (R97). -/
def Buf.code : Buf → Nat
  | .w => 0
  | .a => 1
  | .c => 2
/-- The Buf of a code; a code that is not assigned gives some Buf whose own code differs, which the decoder refuses. -/
def Buf.ofCode : Nat → Buf
  | 0 => .w
  | 1 => .a
  | _ => .c
/-- The code of a Space (R97). -/
def Space.code : Space → Nat
  | .global => 0
  | .w => 1
  | .a => 2
  | .c => 3
/-- The Space of a code; a code that is not assigned gives some Space whose own code differs, which the decoder refuses. -/
def Space.ofCode : Nat → Space
  | 0 => .global
  | 1 => .w
  | 2 => .a
  | _ => .c
/-- The code of a Scope (R97). -/
def Scope.code : Scope → Nat
  | .core => 0
  | .clus => 1
  | .die => 2
  | .mod => 3
  | .sys => 4
/-- The Scope of a code; a code that is not assigned gives some Scope whose own code differs, which the decoder refuses. -/
def Scope.ofCode : Nat → Scope
  | 0 => .core
  | 1 => .clus
  | 2 => .die
  | 3 => .mod
  | _ => .sys
/-- The code of a Lane (R97). -/
def Lane.code : Lane → Nat
  | .b => 0
  | .h => 1
  | .w => 2
  | .d => 3
/-- The Lane of a code; a code that is not assigned gives some Lane whose own code differs, which the decoder refuses. -/
def Lane.ofCode : Nat → Lane
  | 0 => .b
  | 1 => .h
  | 2 => .w
  | _ => .d
/-- The code of a FTy (R97). -/
def FTy.code : FTy → Nat
  | .f32 => 0
  | .bf16 => 1
  | .f16 => 2
/-- The FTy of a code; a code that is not assigned gives some FTy whose own code differs, which the decoder refuses. -/
def FTy.ofCode : Nat → FTy
  | 0 => .f32
  | 1 => .bf16
  | _ => .f16
/-- The code of a VTy (R97). -/
def VTy.code : VTy → Nat
  | .b => 0
  | .h => 1
  | .w => 2
  | .d => 3
  | .f32 => 4
  | .bf16 => 5
  | .f16 => 6
/-- The VTy of a code; a code that is not assigned gives some VTy whose own code differs, which the decoder refuses. -/
def VTy.ofCode : Nat → VTy
  | 0 => .b
  | 1 => .h
  | 2 => .w
  | 3 => .d
  | 4 => .f32
  | 5 => .bf16
  | _ => .f16
/-- The code of a CvtTy (R97). -/
def CvtTy.code : CvtTy → Nat
  | .e4m3 => 0
  | .e5m2 => 1
  | .bf16 => 2
  | .f16 => 3
  | .f32 => 4
  | .i8 => 5
  | .i32 => 6
/-- The CvtTy of a code; a code that is not assigned gives some CvtTy whose own code differs, which the decoder refuses. -/
def CvtTy.ofCode : Nat → CvtTy
  | 0 => .e4m3
  | 1 => .e5m2
  | 2 => .bf16
  | 3 => .f16
  | 4 => .f32
  | 5 => .i8
  | _ => .i32
/-- The code of a Rnd (R97). -/
def Rnd.code : Rnd → Nat
  | .rne => 0
  | .rtz => 1
  | .rdn => 2
  | .rup => 3
/-- The Rnd of a code; a code that is not assigned gives some Rnd whose own code differs, which the decoder refuses. -/
def Rnd.ofCode : Nat → Rnd
  | 0 => .rne
  | 1 => .rtz
  | 2 => .rdn
  | _ => .rup
/-- The code of a Layout (R97). -/
def Layout.code : Layout → Nat
  | .row => 0
  | .col => 1
  | .xor16 => 2
  | .cfg => 3
/-- The Layout of a code; a code that is not assigned gives some Layout whose own code differs, which the decoder refuses. -/
def Layout.ofCode : Nat → Layout
  | 0 => .row
  | 1 => .col
  | 2 => .xor16
  | _ => .cfg
/-- The code of a ScaleMode (R97). -/
def ScaleMode.code : ScaleMode → Nat
  | .page => 0
  | .ones => 1
  | .keep => 2
/-- The ScaleMode of a code; a code that is not assigned gives some ScaleMode whose own code differs, which the decoder refuses. -/
def ScaleMode.ofCode : Nat → ScaleMode
  | 0 => .page
  | 1 => .ones
  | _ => .keep
/-- The code of a SkTy (R97). -/
def SkTy.code : SkTy → Nat
  | .q => 0
  | .h => 1
  | .d => 2
  | .m => 3
/-- The SkTy of a code; a code that is not assigned gives some SkTy whose own code differs, which the decoder refuses. -/
def SkTy.ofCode : Nat → SkTy
  | 0 => .q
  | 1 => .h
  | 2 => .d
  | _ => .m

/-- fn bit 1 of LOOP: an immediate count (R121). -/
def LoopSrc.code : LoopSrc → Nat
  | .reg _ => 0
  | .imm _ => 1
def LoopSrc.regField : LoopSrc → BitVec 5
  | .reg a => a
  | .imm _ => 0#5
def LoopSrc.immField : LoopSrc → BitVec 16
  | .reg _ => 0#16
  | .imm n => n
/-- QS of a scalar operand (R96). -/
def ScalarSrc.qsBit : ScalarSrc → BitVec 1
  | .g _ => 0#1
  | .q _ => 1#1
def ScalarSrc.field : ScalarSrc → BitVec 5
  | .g r => r
  | .q r => r.setWidth 5
def VmovgSrc.qsBit : VmovgSrc → BitVec 1
  | .g _ _ => 0#1
  | .q _ _ => 1#1
def VmovgSrc.fieldA : VmovgSrc → BitVec 5
  | .g x _ => x
  | .q x _ => x.setWidth 5
def VmovgSrc.fieldB : VmovgSrc → BitVec 5
  | .g _ y => y
  | .q _ y => y.setWidth 5
/-- fn of TLD and TST: 0 global, 1 typed (R191). -/
def TMem.fnCode : TMem → Nat
  | .global => 0
  | .w | .a => 1
/-- BUF of the M format (R94, R98). -/
def TMem.bufBits : TMem → BitVec 2
  | .global | .w => 0#2
  | .a => 1#2

/-- An instruction's bits, zero above its length. -/
structure Fields where
  bits : BitVec 128
  deriving DecidableEq, Repr

def Fields.len (f : Fields) : BitVec 2 := f.bits.extractLsb' 0 2
def Fields.op (f : Fields) : BitVec 8 := f.bits.extractLsb' 2 8
def Fields.pq (f : Fields) : BitVec 4 := f.bits.extractLsb' 10 4
def Fields.pn (f : Fields) : BitVec 1 := f.bits.extractLsb' 14 1
def Fields.gs (f : Fields) : BitVec 3 := f.bits.extractLsb' 15 3
def Fields.ge (f : Fields) : BitVec 1 := f.bits.extractLsb' 18 1
def Fields.d (f : Fields) : BitVec 5 := f.bits.extractLsb' 19 5
def Fields.a (f : Fields) : BitVec 5 := f.bits.extractLsb' 24 5
def Fields.b (f : Fields) : BitVec 5 := f.bits.extractLsb' 29 5
def Fields.c (f : Fields) : BitVec 5 := f.bits.extractLsb' 34 5
def Fields.fn (f : Fields) : BitVec 9 := f.bits.extractLsb' 39 9
def Fields.imm16 (f : Fields) : BitVec 16 := f.bits.extractLsb' 48 16
def Fields.fn5 (f : Fields) : BitVec 5 := f.bits.extractLsb' 29 5
def Fields.imm30 (f : Fields) : BitVec 30 := f.bits.extractLsb' 34 30
def Fields.ba (f : Fields) : BitVec 5 := f.bits.extractLsb' 19 5
def Fields.bb (f : Fields) : BitVec 5 := f.bits.extractLsb' 24 5
def Fields.cond (f : Fields) : BitVec 4 := f.bits.extractLsb' 29 4
def Fields.off31 (f : Fields) : BitVec 31 := f.bits.extractLsb' 33 31
def Fields.ext32 (f : Fields) : BitVec 32 := f.bits.extractLsb' 64 32
def Fields.ext64 (f : Fields) : BitVec 64 := f.bits.extractLsb' 64 64
def Fields.event (f : Fields) : BitVec 20 := f.bits.extractLsb' 64 20
def Fields.pv (f : Fields) : BitVec 1 := f.bits.extractLsb' 84 1
def Fields.pbuf (f : Fields) : BitVec 2 := f.bits.extractLsb' 85 2
def Fields.msk (f : Fields) : BitVec 3 := f.bits.extractLsb' 48 3
def Fields.rnd (f : Fields) : BitVec 2 := f.bits.extractLsb' 51 2
def Fields.infBit (f : Fields) : BitVec 1 := f.bits.extractLsb' 53 1
def Fields.mxn (f : Fields) : BitVec 2 := f.bits.extractLsb' 54 2
def Fields.aeBit (f : Fields) : BitVec 1 := f.bits.extractLsb' 56 1
def Fields.part (f : Fields) : BitVec 2 := f.bits.extractLsb' 57 2
def Fields.laneIx (f : Fields) : BitVec 4 := f.bits.extractLsb' 59 4
def Fields.qs (f : Fields) : BitVec 1 := f.bits.extractLsb' 63 1
/-- The header of R90. -/
def Fields.hdr (f : Fields) : Hdr :=
  ⟨f.pq, f.pn == 1#1, if f.ge == 1#1 then some f.gs else none⟩
/-- The payload operand of the E format (R93). -/
def Fields.pay (f : Fields) : Option PayOp :=
  if f.pv == 1#1 then some ⟨f.pbuf == 2#2, f.a, f.imm16⟩ else none
/-- A scalar operand in field x (R96, R172). -/
def Fields.scalar (f : Fields) (x : BitVec 5) : ScalarSrc :=
  if f.qs == 1#1 then .q (x.setWidth 2) else .g x
def Fields.vmovg (f : Fields) : VmovgSrc :=
  if f.qs == 1#1 then .q (f.a.setWidth 2) (f.b.setWidth 2) else .g f.a f.b
/-- The memory operand kind of TLD and TST (R191). -/
def Fields.tmem (f : Fields) : TMem :=
  if f.fn == 0#9 then .global else if f.ext32.extractLsb' 4 2 == 1#2 then .a else .w

/-! ### Candidates, opcode by opcode (R97) -/

/-- Opcode 01. -/
def candAlu (f : Fields) : Option Instr :=
  match f.fn.toNat with
  | 0 => some (.add f.hdr f.d f.a f.b)
  | 1 => some (.sub f.hdr f.d f.a f.b)
  | 2 => some (.and f.hdr f.d f.a f.b)
  | 3 => some (.or f.hdr f.d f.a f.b)
  | 4 => some (.xor f.hdr f.d f.a f.b)
  | 5 => some (.andn f.hdr f.d f.a f.b)
  | 6 => some (.shl f.hdr f.d f.a f.b)
  | 7 => some (.shr f.hdr f.d f.a f.b)
  | 8 => some (.sar f.hdr f.d f.a f.b)
  | 9 => some (.ror f.hdr f.d f.a f.b)
  | 10 => some (.min f.hdr f.d f.a f.b)
  | 11 => some (.max f.hdr f.d f.a f.b)
  | 12 => some (.minu f.hdr f.d f.a f.b)
  | 13 => some (.maxu f.hdr f.d f.a f.b)
  | 14 => some (.mul f.hdr f.d f.a f.b)
  | 15 => some (.mulh f.hdr f.d f.a f.b)
  | 16 => some (.mulhu f.hdr f.d f.a f.b)
  | 17 => some (.div f.hdr f.d f.a f.b)
  | 18 => some (.divu f.hdr f.d f.a f.b)
  | 19 => some (.rem f.hdr f.d f.a f.b)
  | 20 => some (.remu f.hdr f.d f.a f.b)
  | 21 => some (.addw f.hdr f.d f.a f.b)
  | 22 => some (.subw f.hdr f.d f.a f.b)
  | 23 => some (.mulw f.hdr f.d f.a f.b)
  | 24 => some (.clz f.hdr f.d f.a)
  | 25 => some (.ctz f.hdr f.d f.a)
  | 26 => some (.popc f.hdr f.d f.a)
  | 27 => some (.bswap f.hdr f.d f.a)
  | 28 => some (.sext f.hdr f.d f.a (f.imm16.setWidth 7))
  | 29 => some (.zext f.hdr f.d f.a (f.imm16.setWidth 7))
  | 30 => some (.bfx f.hdr f.d f.a (f.imm16.setWidth 6) (f.imm16.extractLsb' 6 7))
  | 31 => some (.bfi f.hdr f.d f.a (f.imm16.setWidth 6) (f.imm16.extractLsb' 6 7))
  | _ => none
/-- Opcode 02. -/
def candAlui (f : Fields) : Option Instr :=
  match f.fn5.toNat with
  | 0 => some (.addi f.hdr f.d f.a f.imm30)
  | 2 => some (.andi f.hdr f.d f.a f.imm30)
  | 3 => some (.ori f.hdr f.d f.a f.imm30)
  | 4 => some (.xori f.hdr f.d f.a f.imm30)
  | 6 => some (.shli f.hdr f.d f.a (f.imm30.setWidth 6))
  | 7 => some (.shri f.hdr f.d f.a (f.imm30.setWidth 6))
  | 8 => some (.sari f.hdr f.d f.a (f.imm30.setWidth 6))
  | 9 => some (.rori f.hdr f.d f.a (f.imm30.setWidth 6))
  | 10 => some (.mini f.hdr f.d f.a f.imm30)
  | 11 => some (.maxi f.hdr f.d f.a f.imm30)
  | 21 => some (.addwi f.hdr f.d f.a f.imm30)
  | _ => none
/-- Opcode 03. -/
def candMovl (f : Fields) : Option Instr :=
  match f.fn.toNat with
  | 0 => some (.movl f.hdr f.d f.ext64)
  | _ => none
/-- Opcode 04. -/
def candPcrel (f : Fields) : Option Instr :=
  match f.fn.toNat with
  | 0 => some (.pcrel f.hdr f.d f.ext32)
  | _ => none
/-- Opcode 05. -/
def candCmp (f : Fields) : Option Instr :=
  some (.cmp f.hdr (Cond.ofCode (f.fn.toNat)) (f.d.setWidth 4) f.a f.b)
/-- Opcode 06. -/
def candCmpi (f : Fields) : Option Instr :=
  some (.cmpi f.hdr (Cond.ofCode (f.fn5.toNat)) (f.d.setWidth 4) f.a f.imm30)
/-- Opcode 07. -/
def candPred (f : Fields) : Option Instr :=
  match f.fn.toNat with
  | 0 => some (.pand f.hdr (f.d.setWidth 4) (f.a.setWidth 4) (f.b.setWidth 4))
  | 1 => some (.por f.hdr (f.d.setWidth 4) (f.a.setWidth 4) (f.b.setWidth 4))
  | 2 => some (.pxor f.hdr (f.d.setWidth 4) (f.a.setWidth 4) (f.b.setWidth 4))
  | 3 => some (.pandn f.hdr (f.d.setWidth 4) (f.a.setWidth 4) (f.b.setWidth 4))
  | 4 => some (.pnot f.hdr (f.d.setWidth 4) (f.a.setWidth 4))
  | 5 => some (.pmov f.hdr (f.d.setWidth 4) (f.a.setWidth 4))
  | 6 => some (.pset f.hdr (f.d.setWidth 4) (f.imm16.setWidth 1))
  | _ => none
/-- Opcode 08. -/
def candSel (f : Fields) : Option Instr :=
  match f.fn.toNat with
  | 0 => some (.sel f.hdr f.d (f.c.setWidth 4) f.a f.b)
  | _ => none
/-- Opcode 09. -/
def candCsr (f : Fields) : Option Instr :=
  match f.fn5.toNat with
  | 0 => some (.csrr f.hdr f.d (f.imm30.setWidth 12))
  | 1 => some (.csrw f.hdr (f.imm30.setWidth 12) f.a)
  | 2 => some (.csrs f.hdr (f.imm30.setWidth 12) f.a)
  | 3 => some (.csrc f.hdr (f.imm30.setWidth 12) f.a)
  | _ => none
/-- Opcode 20. -/
def candB (f : Fields) : Option Instr :=
  some (.b f.hdr (Cond.ofCode (f.cond.toNat)) f.ba f.bb f.off31)
/-- Opcode 21. -/
def candBp (f : Fields) : Option Instr :=
  some (.bp f.hdr (f.cond.setWidth 1) (f.ba.setWidth 4) f.off31)
/-- Opcode 22. -/
def candJmp (f : Fields) : Option Instr :=
  some (.jmp f.hdr f.off31)
/-- Opcode 23. -/
def candJal (f : Fields) : Option Instr :=
  match f.fn5.toNat with
  | 0 => some (.jal f.hdr f.d f.imm30)
  | _ => none
/-- Opcode 24. -/
def candJalr (f : Fields) : Option Instr :=
  match f.fn5.toNat with
  | 0 => some (.jalr f.hdr f.d f.a f.imm30)
  | _ => none
/-- Opcode 25. -/
def candLoop (f : Fields) : Option Instr :=
  some (.loop f.hdr (f.fn.setWidth 1) (if f.fn.getLsbD 1 then .imm f.imm16 else .reg f.a) f.ext32)
/-- Opcode 26. -/
def candGuard (f : Fields) : Option Instr :=
  match f.fn.toNat with
  | 0 => some (.gset f.hdr (f.d.setWidth 3) (f.a.setWidth 4))
  | 1 => some (.gkill f.hdr (f.d.setWidth 3))
  | _ => none
/-- Opcode 28. -/
def candQput (f : Fields) : Option Instr :=
  match f.fn.toNat with
  | 0 => some (.qput f.hdr (f.d.setWidth 2) f.a)
  | _ => none
/-- Opcode 29. -/
def candQget (f : Fields) : Option Instr :=
  match f.fn.toNat with
  | 0 => some (.qget f.hdr f.d (f.a.setWidth 2))
  | _ => none
/-- Opcode 30. -/
def candLd (f : Fields) : Option Instr :=
  match f.fn.toNat / 8 with
  | 0 => some (.ld f.hdr (LdW.ofCode (f.fn.toNat % 8)) f.d f.a f.ext32)
  | 1 => some (.ldAq f.hdr (LdW.ofCode (f.fn.toNat % 8)) f.d f.a f.ext32)
  | _ => none
/-- Opcode 31. -/
def candSt (f : Fields) : Option Instr :=
  match f.fn.toNat / 8 with
  | 0 => some (.st f.hdr (StW.ofCode (f.fn.toNat % 8)) f.b f.a f.ext32)
  | 1 => some (.stRl f.hdr (StW.ofCode (f.fn.toNat % 8)) f.b f.a f.ext32)
  | _ => none
/-- Opcode 32. -/
def candLds (f : Fields) : Option Instr :=
  some (.lds f.hdr (Buf.ofCode (f.fn.toNat / 16)) (LdW.ofCode (f.fn.toNat % 16)) f.d f.a f.ext32)
/-- Opcode 33. -/
def candSts (f : Fields) : Option Instr :=
  some (.sts f.hdr (Buf.ofCode (f.fn.toNat / 16)) (StW.ofCode (f.fn.toNat % 16)) f.b f.a f.ext32)
/-- Opcode 34. -/
def candLdx (f : Fields) : Option Instr :=
  some (.ldx f.hdr (Buf.ofCode (f.fn.toNat / 16)) (LdW.ofCode (f.fn.toNat % 16)) f.d f.b f.a f.ext32)
/-- Opcode 35. -/
def candStx (f : Fields) : Option Instr :=
  match f.fn.toNat % 16 / 8 with
  | 0 => some (.stx f.hdr (Buf.ofCode (f.fn.toNat / 16)) (StW.ofCode (f.fn.toNat % 8)) f.b f.c f.a f.ext32)
  | 1 => some (.stxT f.hdr (Buf.ofCode (f.fn.toNat / 16)) (StW.ofCode (f.fn.toNat % 8)) f.b f.c f.a f.ext32)
  | _ => none
/-- Opcode 36. -/
def candAmo (f : Fields) : Option Instr :=
  match f.fn.toNat / 2 with
  | 0 => some (.amoAdd f.hdr (f.fn.setWidth 1) f.d f.a f.b f.ext32)
  | 1 => some (.amoAnd f.hdr (f.fn.setWidth 1) f.d f.a f.b f.ext32)
  | 2 => some (.amoOr f.hdr (f.fn.setWidth 1) f.d f.a f.b f.ext32)
  | 3 => some (.amoXor f.hdr (f.fn.setWidth 1) f.d f.a f.b f.ext32)
  | 4 => some (.amoMin f.hdr (f.fn.setWidth 1) f.d f.a f.b f.ext32)
  | 5 => some (.amoMax f.hdr (f.fn.setWidth 1) f.d f.a f.b f.ext32)
  | 6 => some (.amoMinu f.hdr (f.fn.setWidth 1) f.d f.a f.b f.ext32)
  | 7 => some (.amoMaxu f.hdr (f.fn.setWidth 1) f.d f.a f.b f.ext32)
  | 8 => some (.amoSwap f.hdr (f.fn.setWidth 1) f.d f.a f.b f.ext32)
  | _ => none
/-- Opcode 37. -/
def candCas (f : Fields) : Option Instr :=
  some (.cas f.hdr (f.fn.setWidth 1) f.d f.a f.b f.c f.ext32)
/-- Opcode 38. -/
def candAmox (f : Fields) : Option Instr :=
  match f.fn.toNat % 32 / 2 with
  | 0 => some (.amoxAdd f.hdr (Buf.ofCode (f.fn.toNat / 32)) (f.fn.setWidth 1) f.d f.b f.c f.a f.ext32)
  | 1 => some (.amoxAnd f.hdr (Buf.ofCode (f.fn.toNat / 32)) (f.fn.setWidth 1) f.d f.b f.c f.a f.ext32)
  | 2 => some (.amoxOr f.hdr (Buf.ofCode (f.fn.toNat / 32)) (f.fn.setWidth 1) f.d f.b f.c f.a f.ext32)
  | 3 => some (.amoxXor f.hdr (Buf.ofCode (f.fn.toNat / 32)) (f.fn.setWidth 1) f.d f.b f.c f.a f.ext32)
  | 4 => some (.amoxMin f.hdr (Buf.ofCode (f.fn.toNat / 32)) (f.fn.setWidth 1) f.d f.b f.c f.a f.ext32)
  | 5 => some (.amoxMax f.hdr (Buf.ofCode (f.fn.toNat / 32)) (f.fn.setWidth 1) f.d f.b f.c f.a f.ext32)
  | 6 => some (.amoxMinu f.hdr (Buf.ofCode (f.fn.toNat / 32)) (f.fn.setWidth 1) f.d f.b f.c f.a f.ext32)
  | 7 => some (.amoxMaxu f.hdr (Buf.ofCode (f.fn.toNat / 32)) (f.fn.setWidth 1) f.d f.b f.c f.a f.ext32)
  | 8 => some (.amoxSwap f.hdr (Buf.ofCode (f.fn.toNat / 32)) (f.fn.setWidth 1) f.d f.b f.c f.a f.ext32)
  | _ => none
/-- Opcode 39. -/
def candFence (f : Fields) : Option Instr :=
  some (.fence f.hdr (Scope.ofCode (f.fn.toNat)) (f.imm16.setWidth 7) (f.imm16.extractLsb' 7 7))
/-- Opcode 3A. -/
def candPref (f : Fields) : Option Instr :=
  match f.fn.toNat with
  | 0 => some (.pref f.hdr f.a f.ext32)
  | 1 => some (.prefSt f.hdr f.a f.ext32)
  | _ => none
/-- Opcode 3B. -/
def candMcst (f : Fields) : Option Instr :=
  some (.mcst f.hdr (Buf.ofCode (f.fn.toNat / 16)) (McW.ofCode (f.fn.toNat % 16)) f.b f.c f.a f.ext32)
/-- Opcode 3C. -/
def candWin (f : Fields) : Option Instr :=
  match f.fn.toNat with
  | 0 => some (.winset f.hdr (f.d.setWidth 3) f.a)
  | 1 => some (.winclr f.hdr (f.d.setWidth 3))
  | _ => none
/-- Opcode 50. -/
def candEvw (f : Fields) : Option Instr :=
  match f.fn.toNat with
  | 0 => some (.evw f.hdr f.event f.b f.pay f.c)
  | _ => none
/-- Opcode 51. -/
def candEvt (f : Fields) : Option Instr :=
  match f.fn.toNat with
  | 0 => some (.evt f.hdr f.event f.b f.pay)
  | _ => none
/-- Opcode 52. -/
def candChoose (f : Fields) : Option Instr :=
  match f.fn.toNat with
  | 0 => some (.chooseW f.hdr f.d f.a f.imm16 f.c)
  | 1 => some (.chooseT f.hdr f.d f.a f.imm16)
  | _ => none
/-- Opcode 53. -/
def candSignal (f : Fields) : Option Instr :=
  match f.fn.toNat with
  | 0 => some (.signal f.hdr f.event f.b f.pay)
  | _ => none
/-- Opcode 54. -/
def candArm (f : Fields) : Option Instr :=
  match f.fn.toNat with
  | 0 => some (.armReg f.hdr f.event f.b f.a)
  | 1 => some (.armImm f.hdr f.event f.b f.imm16)
  | _ => none
/-- Opcode 55. -/
def candSpawn (f : Fields) : Option Instr :=
  match f.fn.toNat with
  | 0 => some (.spawn f.hdr f.a f.imm16)
  | _ => none
/-- Opcode 56. -/
def candEnd (f : Fields) : Option Instr :=
  match f.fn.toNat with
  | 0 => some (.endTask f.hdr)
  | _ => none
/-- Opcode 57. -/
def candYield (f : Fields) : Option Instr :=
  match f.fn.toNat with
  | 0 => some (.yield f.hdr f.c)
  | _ => none
/-- Opcode 58. -/
def candBind (f : Fields) : Option Instr :=
  match f.fn.toNat with
  | 0 => some (.bind f.hdr f.event f.b f.a f.imm16)
  | 1 => some (.unbind f.hdr f.event f.b)
  | _ => none
/-- Opcode 59. -/
def candEvseq (f : Fields) : Option Instr :=
  match f.fn.toNat with
  | 0 => some (.evseq f.hdr f.d f.event f.b)
  | _ => none
/-- Opcode 60. -/
def candVint (f : Fields) : Option Instr :=
  match f.fn.toNat / 4 with
  | 0 => some (.vadd f.hdr (Lane.ofCode (f.fn.toNat % 4)) f.d f.a f.b f.msk)
  | 1 => some (.vsub f.hdr (Lane.ofCode (f.fn.toNat % 4)) f.d f.a f.b f.msk)
  | 2 => some (.vmul f.hdr (Lane.ofCode (f.fn.toNat % 4)) f.d f.a f.b f.msk)
  | 3 => some (.vmulh f.hdr (Lane.ofCode (f.fn.toNat % 4)) f.d f.a f.b f.msk)
  | 4 => some (.vmin f.hdr (Lane.ofCode (f.fn.toNat % 4)) f.d f.a f.b f.msk)
  | 5 => some (.vmax f.hdr (Lane.ofCode (f.fn.toNat % 4)) f.d f.a f.b f.msk)
  | 6 => some (.vminu f.hdr (Lane.ofCode (f.fn.toNat % 4)) f.d f.a f.b f.msk)
  | 7 => some (.vmaxu f.hdr (Lane.ofCode (f.fn.toNat % 4)) f.d f.a f.b f.msk)
  | 8 => some (.vand f.hdr (Lane.ofCode (f.fn.toNat % 4)) f.d f.a f.b f.msk)
  | 9 => some (.vor f.hdr (Lane.ofCode (f.fn.toNat % 4)) f.d f.a f.b f.msk)
  | 10 => some (.vxor f.hdr (Lane.ofCode (f.fn.toNat % 4)) f.d f.a f.b f.msk)
  | 11 => some (.vandn f.hdr (Lane.ofCode (f.fn.toNat % 4)) f.d f.a f.b f.msk)
  | 12 => some (.vshl f.hdr (Lane.ofCode (f.fn.toNat % 4)) f.d f.a f.b f.msk)
  | 13 => some (.vshr f.hdr (Lane.ofCode (f.fn.toNat % 4)) f.d f.a f.b f.msk)
  | 14 => some (.vsar f.hdr (Lane.ofCode (f.fn.toNat % 4)) f.d f.a f.b f.msk)
  | 15 => some (.vabs f.hdr (Lane.ofCode (f.fn.toNat % 4)) f.d f.a f.msk)
  | 16 => some (.vneg f.hdr (Lane.ofCode (f.fn.toNat % 4)) f.d f.a f.msk)
  | _ => none
/-- Opcode 61. -/
def candVinti (f : Fields) : Option Instr :=
  match f.fn5.toNat with
  | 0 => some (.vaddi f.hdr (Lane.ofCode (f.imm30.extractLsb' 20 2).toNat) f.d f.a (f.imm30.setWidth 16) (f.imm30.extractLsb' 16 3))
  | 1 => some (.vsubi f.hdr (Lane.ofCode (f.imm30.extractLsb' 20 2).toNat) f.d f.a (f.imm30.setWidth 16) (f.imm30.extractLsb' 16 3))
  | 4 => some (.vmini f.hdr (Lane.ofCode (f.imm30.extractLsb' 20 2).toNat) f.d f.a (f.imm30.setWidth 16) (f.imm30.extractLsb' 16 3))
  | 5 => some (.vmaxi f.hdr (Lane.ofCode (f.imm30.extractLsb' 20 2).toNat) f.d f.a (f.imm30.setWidth 16) (f.imm30.extractLsb' 16 3))
  | 6 => some (.vminui f.hdr (Lane.ofCode (f.imm30.extractLsb' 20 2).toNat) f.d f.a (f.imm30.setWidth 16) (f.imm30.extractLsb' 16 3))
  | 7 => some (.vmaxui f.hdr (Lane.ofCode (f.imm30.extractLsb' 20 2).toNat) f.d f.a (f.imm30.setWidth 16) (f.imm30.extractLsb' 16 3))
  | 8 => some (.vandi f.hdr (Lane.ofCode (f.imm30.extractLsb' 20 2).toNat) f.d f.a (f.imm30.setWidth 16) (f.imm30.extractLsb' 16 3))
  | 9 => some (.vori f.hdr (Lane.ofCode (f.imm30.extractLsb' 20 2).toNat) f.d f.a (f.imm30.setWidth 16) (f.imm30.extractLsb' 16 3))
  | 10 => some (.vxori f.hdr (Lane.ofCode (f.imm30.extractLsb' 20 2).toNat) f.d f.a (f.imm30.setWidth 16) (f.imm30.extractLsb' 16 3))
  | 11 => some (.vandni f.hdr (Lane.ofCode (f.imm30.extractLsb' 20 2).toNat) f.d f.a (f.imm30.setWidth 16) (f.imm30.extractLsb' 16 3))
  | 12 => some (.vshli f.hdr (Lane.ofCode (f.imm30.extractLsb' 20 2).toNat) f.d f.a (f.imm30.setWidth 16) (f.imm30.extractLsb' 16 3))
  | 13 => some (.vshri f.hdr (Lane.ofCode (f.imm30.extractLsb' 20 2).toNat) f.d f.a (f.imm30.setWidth 16) (f.imm30.extractLsb' 16 3))
  | 14 => some (.vsari f.hdr (Lane.ofCode (f.imm30.extractLsb' 20 2).toNat) f.d f.a (f.imm30.setWidth 16) (f.imm30.extractLsb' 16 3))
  | _ => none
/-- Opcode 62. -/
def candVfp (f : Fields) : Option Instr :=
  match f.fn.toNat / 4 with
  | 0 => some (.vfadd f.hdr (FTy.ofCode (f.fn.toNat % 4)) (Rnd.ofCode f.rnd.toNat) f.d f.a f.b f.msk)
  | 1 => some (.vfsub f.hdr (FTy.ofCode (f.fn.toNat % 4)) (Rnd.ofCode f.rnd.toNat) f.d f.a f.b f.msk)
  | 2 => some (.vfmul f.hdr (FTy.ofCode (f.fn.toNat % 4)) (Rnd.ofCode f.rnd.toNat) f.d f.a f.b f.msk)
  | 3 => some (.vfdiv f.hdr (FTy.ofCode (f.fn.toNat % 4)) (Rnd.ofCode f.rnd.toNat) f.d f.a f.b f.msk)
  | 4 => some (.vfmin f.hdr (FTy.ofCode (f.fn.toNat % 4)) (Rnd.ofCode f.rnd.toNat) f.d f.a f.b f.msk)
  | 5 => some (.vfmax f.hdr (FTy.ofCode (f.fn.toNat % 4)) (Rnd.ofCode f.rnd.toNat) f.d f.a f.b f.msk)
  | 6 => some (.vfsqrt f.hdr (FTy.ofCode (f.fn.toNat % 4)) (Rnd.ofCode f.rnd.toNat) f.d f.a f.msk)
  | 7 => some (.vfabs f.hdr (FTy.ofCode (f.fn.toNat % 4)) (Rnd.ofCode f.rnd.toNat) f.d f.a f.msk)
  | 8 => some (.vfneg f.hdr (FTy.ofCode (f.fn.toNat % 4)) (Rnd.ofCode f.rnd.toNat) f.d f.a f.msk)
  | 9 => some (.vfex2 f.hdr (FTy.ofCode (f.fn.toNat % 4)) (Rnd.ofCode f.rnd.toNat) f.d f.a f.msk)
  | 10 => some (.vflg2 f.hdr (FTy.ofCode (f.fn.toNat % 4)) (Rnd.ofCode f.rnd.toNat) f.d f.a f.msk)
  | _ => none
/-- Opcode 63. -/
def candVfma (f : Fields) : Option Instr :=
  match f.fn.toNat / 4 with
  | 0 => some (.vfma f.hdr (FTy.ofCode (f.fn.toNat % 4)) (Rnd.ofCode f.rnd.toNat) f.d f.a f.b f.c f.msk)
  | 1 => some (.vfms f.hdr (FTy.ofCode (f.fn.toNat % 4)) (Rnd.ofCode f.rnd.toNat) f.d f.a f.b f.c f.msk)
  | 2 => some (.vfnma f.hdr (FTy.ofCode (f.fn.toNat % 4)) (Rnd.ofCode f.rnd.toNat) f.d f.a f.b f.c f.msk)
  | _ => none
/-- Opcode 64. -/
def candVcmp (f : Fields) : Option Instr :=
  some (.vcmp f.hdr (Cond.ofCode (f.fn.toNat / 8)) (VTy.ofCode (f.fn.toNat % 8)) (f.d.setWidth 3) f.a f.b f.msk)
/-- Opcode 65. -/
def candVsel (f : Fields) : Option Instr :=
  match f.fn.toNat with
  | 0 => some (.vsel f.hdr f.d f.a f.b f.msk)
  | _ => none
/-- Opcode 66. -/
def candVperm (f : Fields) : Option Instr :=
  some (.vperm f.hdr (Lane.ofCode (f.fn.toNat)) f.d f.a f.b f.msk)
/-- Opcode 67. -/
def candVsplat (f : Fields) : Option Instr :=
  some (.vsplat f.hdr (Lane.ofCode (f.fn.toNat)) f.d (f.scalar f.a) f.msk)
/-- Opcode 68. -/
def candVext (f : Fields) : Option Instr :=
  some (.vext f.hdr (Lane.ofCode (f.fn.toNat)) f.d f.a f.laneIx)
/-- Opcode 69. -/
def candVins (f : Fields) : Option Instr :=
  some (.vins f.hdr (Lane.ofCode (f.fn.toNat)) f.d (f.scalar f.a) f.laneIx f.msk)
/-- Opcode 6A. -/
def candVcvt (f : Fields) : Option Instr :=
  some (.vcvt f.hdr (CvtTy.ofCode (f.fn.toNat / 8)) (CvtTy.ofCode (f.fn.toNat % 8)) f.part (Rnd.ofCode f.rnd.toNat) f.infBit f.d f.a (f.scalar f.b) f.aeBit f.mxn f.msk)
/-- Opcode 6B. -/
def candVld (f : Fields) : Option Instr :=
  match f.fn.toNat with
  | 0 => some (.vld f.hdr f.d f.a f.ext32 f.msk)
  | _ => none
/-- Opcode 6C. -/
def candVst (f : Fields) : Option Instr :=
  match f.fn.toNat with
  | 0 => some (.vst f.hdr f.b f.a f.ext32 f.msk)
  | _ => none
/-- Opcode 6D. -/
def candVls (f : Fields) : Option Instr :=
  match f.fn.toNat % 16 with
  | 0 => some (.vlds f.hdr (Buf.ofCode (f.fn.toNat / 16)) f.d f.a f.ext32 f.msk)
  | 1 => some (.vsts f.hdr (Buf.ofCode (f.fn.toNat / 16)) f.b f.a f.ext32 f.msk)
  | _ => none
/-- Opcode 6E. -/
def candVgath (f : Fields) : Option Instr :=
  some (.vgath f.hdr (Space.ofCode (f.fn.toNat / 4)) (Lane.ofCode (f.fn.toNat % 4)) f.d f.a f.b f.ext32 f.msk)
/-- Opcode 6F. -/
def candVscat (f : Fields) : Option Instr :=
  some (.vscat f.hdr (Space.ofCode (f.fn.toNat / 4)) (Lane.ofCode (f.fn.toNat % 4)) f.a f.b f.c f.ext32 f.msk)
/-- Opcode 70. -/
def candVhadd (f : Fields) : Option Instr :=
  some (.vhadd f.hdr (VTy.ofCode (f.fn.toNat)) (Rnd.ofCode f.rnd.toNat) f.d f.a f.msk)
/-- Opcode 71. -/
def candMask (f : Fields) : Option Instr :=
  match f.fn.toNat with
  | 0 => some (.mand f.hdr (f.d.setWidth 3) (f.a.setWidth 3) (f.b.setWidth 3))
  | 1 => some (.mor f.hdr (f.d.setWidth 3) (f.a.setWidth 3) (f.b.setWidth 3))
  | 2 => some (.mxor f.hdr (f.d.setWidth 3) (f.a.setWidth 3) (f.b.setWidth 3))
  | 3 => some (.mnot f.hdr (f.d.setWidth 3) (f.a.setWidth 3))
  | 4 => some (.mset f.hdr (f.d.setWidth 3) f.imm16)
  | _ => none
/-- Opcode 72. -/
def candVxg (f : Fields) : Option Instr :=
  match f.fn.toNat with
  | 0 => some (.vxg f.hdr f.d f.a f.laneIx f.msk)
  | _ => none
/-- Opcode 73. -/
def candGang (f : Fields) : Option Instr :=
  match f.fn.toNat with
  | 0 => some (.gangOn f.hdr)
  | 1 => some (.gangOff f.hdr)
  | _ => none
/-- Opcode 74. -/
def candVmov (f : Fields) : Option Instr :=
  match f.fn.toNat with
  | 0 => some (.vmov f.hdr f.d f.a f.msk)
  | 1 => some (.vmovg f.hdr f.d f.vmovg f.msk)
  | _ => none
/-- Opcode 90. -/
def candTcfg (f : Fields) : Option Instr :=
  match f.fn.toNat with
  | 0 => some (.tcfg f.hdr (f.d.setWidth 3) f.a)
  | _ => none
/-- Opcode 91. -/
def candTld (f : Fields) : Option Instr :=
  some (.tld f.hdr f.tmem (f.d.setWidth 3) f.a f.imm16 (f.ext32.extractLsb' 16 16) (Layout.ofCode (f.ext32.extractLsb' 0 2).toNat) (ScaleMode.ofCode (f.ext32.extractLsb' 2 2).toNat))
/-- Opcode 92. -/
def candTst (f : Fields) : Option Instr :=
  some (.tst f.hdr f.tmem (f.b.setWidth 3) f.a f.imm16 (f.ext32.extractLsb' 16 16) (Layout.ofCode (f.ext32.extractLsb' 0 2).toNat))
/-- Opcode 93. -/
def candTzero (f : Fields) : Option Instr :=
  match f.fn.toNat with
  | 0 => some (.tzero f.hdr (f.d.setWidth 3))
  | _ => none
/-- Opcode 94. -/
def candMma (f : Fields) : Option Instr :=
  match f.fn.toNat with
  | 0 => some (.mma f.hdr (f.d.setWidth 3) (f.a.setWidth 3) (f.b.setWidth 3))
  | _ => none
/-- Opcode 95. -/
def candCzero (f : Fields) : Option Instr :=
  match f.fn.toNat with
  | 0 => some (.czero f.hdr (f.d.setWidth 3))
  | _ => none
/-- Opcode 96. -/
def candCldst (f : Fields) : Option Instr :=
  match f.fn.toNat with
  | 0 => some (.cld f.hdr (f.d.setWidth 3) f.a f.ext32)
  | 1 => some (.cst f.hdr (f.b.setWidth 3) f.a f.ext32)
  | _ => none
/-- Opcode 97. -/
def candCdrain (f : Fields) : Option Instr :=
  match f.fn.toNat with
  | 0 => some (.cdrainWAdd f.hdr (f.d.setWidth 3) f.event f.b f.c)
  | 1 => some (.cdrainWMov f.hdr (f.d.setWidth 3) f.event f.b f.c)
  | 2 => some (.cdrainTAdd f.hdr (f.d.setWidth 3) f.event f.b)
  | 3 => some (.cdrainTMov f.hdr (f.d.setWidth 3) f.event f.b)
  | _ => none
/-- Opcode 98. -/
def candCrecv (f : Fields) : Option Instr :=
  match f.fn.toNat with
  | 0 => some (.crecvW f.hdr (f.d.setWidth 3) f.event f.b f.c)
  | 1 => some (.crecvT f.hdr (f.d.setWidth 3) f.event f.b)
  | _ => none
/-- Opcode 99. -/
def candCcvt (f : Fields) : Option Instr :=
  some (.ccvt f.hdr (CvtTy.ofCode (f.fn.toNat)) (Rnd.ofCode f.rnd.toNat) f.infBit f.laneIx (f.d.setWidth 3) (f.a.setWidth 3) (f.scalar f.b) f.aeBit f.mxn)
/-- Opcode 9A. -/
def candTtr (f : Fields) : Option Instr :=
  match f.fn.toNat with
  | 0 => some (.ttr f.hdr (f.d.setWidth 3) (f.a.setWidth 3))
  | _ => none
/-- Opcode 9B. -/
def candMx (f : Fields) : Option Instr :=
  match f.fn.toNat with
  | 0 => some (.mxr f.hdr f.d (f.a.setWidth 2))
  | 1 => some (.mxclr f.hdr (f.d.setWidth 2))
  | _ => none
/-- Opcode B0. -/
def candSkinit (f : Fields) : Option Instr :=
  some (.skinit f.hdr (SkTy.ofCode (f.fn.toNat)) f.a f.imm16)
/-- Opcode B1. -/
def candSkadd (f : Fields) : Option Instr :=
  match f.fn.toNat with
  | 0 => some (.skqadd f.hdr f.b f.a f.imm16 (f.c.setWidth 3))
  | 1 => some (.skhadd f.hdr f.b f.a f.imm16 (f.c.setWidth 3))
  | 2 => some (.skdadd f.hdr f.b f.a f.imm16 (f.c.setWidth 3))
  | 3 => some (.skmadd f.hdr f.b f.a f.imm16 (f.c.setWidth 3))
  | _ => none
/-- Opcode B2. -/
def candSkmerge (f : Fields) : Option Instr :=
  match f.fn.toNat with
  | 0 => some (.skmerge f.hdr f.b f.a f.imm16)
  | _ => none
/-- Opcode B3. -/
def candSkqry (f : Fields) : Option Instr :=
  match f.fn.toNat with
  | 0 => some (.skquant f.hdr f.d f.b f.a f.imm16)
  | 1 => some (.sktopk f.hdr f.d f.b f.a f.imm16)
  | 2 => some (.skcard f.hdr f.d f.a f.imm16)
  | 3 => some (.skmom f.hdr f.d f.b f.a f.imm16)
  | _ => none
/-- Opcode C0. -/
def candCpy (f : Fields) : Option Instr :=
  match f.fn.toNat with
  | 0 => some (.cpy f.hdr f.d f.a f.imm16)
  | 1 => some (.cpyT f.hdr f.d f.a f.imm16)
  | _ => none
/-- Opcode C1. -/
def candCpysk (f : Fields) : Option Instr :=
  match f.fn.toNat with
  | 0 => some (.cpysk f.hdr f.d f.b f.a f.imm16)
  | _ => none
/-- Opcode C2. -/
def candColl (f : Fields) : Option Instr :=
  match f.fn.toNat with
  | 0 => some (.coll f.hdr f.d f.a f.imm16)
  | _ => none
/-- Opcode C3. -/
def candTxe (f : Fields) : Option Instr :=
  match f.fn.toNat with
  | 0 => some (.txe f.hdr f.d f.a f.imm16)
  | _ => none
/-- Opcode C4. -/
def candTxd (f : Fields) : Option Instr :=
  match f.fn.toNat with
  | 0 => some (.txd f.hdr f.d f.a f.imm16)
  | _ => none
/-- Opcode C5. -/
def candVocab (f : Fields) : Option Instr :=
  match f.fn.toNat with
  | 0 => some (.vocab f.hdr f.d f.a f.imm16)
  | _ => none
/-- Opcode D0. -/
def candTrap (f : Fields) : Option Instr :=
  match f.fn5.toNat with
  | 0 => some (.trap f.hdr f.imm30)
  | _ => none
/-- Opcode D1. -/
def candBrk (f : Fields) : Option Instr :=
  match f.fn5.toNat with
  | 0 => some (.brk f.hdr f.imm30)
  | _ => none
/-- Opcode D2. -/
def candEret (f : Fields) : Option Instr :=
  match f.fn.toNat with
  | 0 => some (.eret f.hdr)
  | _ => none
/-- Opcode D3. -/
def candXlinv (f : Fields) : Option Instr :=
  match f.fn.toNat with
  | 0 => some (.xlinv f.hdr)
  | 1 => some (.xlinvCtx f.hdr f.a)
  | 2 => some (.xlinvVa f.hdr f.a f.b)
  | _ => none
/-- Opcode D4. -/
def candCtx (f : Fields) : Option Instr :=
  match f.fn.toNat with
  | 0 => some (.ctxsave f.hdr f.a)
  | 1 => some (.ctxload f.hdr f.a)
  | _ => none
/-- Opcode D5. -/
def candKnotop (f : Fields) : Option Instr :=
  match f.fn.toNat with
  | 0 => some (.knotopRd f.hdr f.d f.a)
  | 1 => some (.knotopWr f.hdr f.a f.b)
  | 2 => some (.knotopPurge f.hdr f.a)
  | 3 => some (.knotopCancel f.hdr f.a)
  | _ => none
/-- Opcode D6. -/
def candIdle (f : Fields) : Option Instr :=
  match f.fn.toNat with
  | 0 => some (.idle f.hdr)
  | _ => none
/-- Opcode 27: the three lengths of NOP (R127). -/
def candNop (f : Fields) : Option Instr :=
  match f.len.toNat with
  | 0 => some .nop
  | 1 => some .nopX
  | 2 => some .nopL
  | _ => none

/-- Whether the opcode map assigns a major opcode (R97, R99). -/
def assigned (op : Nat) : Bool :=
  [0x01, 0x02, 0x03, 0x04, 0x05, 0x06, 0x07, 0x08, 0x09, 0x20, 0x21, 0x22, 0x23, 0x24, 0x25, 0x26, 0x27, 0x28, 0x29, 0x30, 0x31, 0x32, 0x33, 0x34, 0x35, 0x36, 0x37, 0x38, 0x39, 0x3A, 0x3B, 0x3C, 0x50, 0x51, 0x52, 0x53, 0x54, 0x55, 0x56, 0x57, 0x58, 0x59, 0x60, 0x61, 0x62, 0x63, 0x64, 0x65, 0x66, 0x67, 0x68, 0x69, 0x6A, 0x6B, 0x6C, 0x6D, 0x6E, 0x6F, 0x70, 0x71, 0x72, 0x73, 0x74, 0x90, 0x91, 0x92, 0x93, 0x94, 0x95, 0x96, 0x97, 0x98, 0x99, 0x9A, 0x9B, 0xB0, 0xB1, 0xB2, 0xB3, 0xC0, 0xC1, 0xC2, 0xC3, 0xC4, 0xC5, 0xD0, 0xD1, 0xD2, 0xD3, 0xD4, 0xD5, 0xD6].contains op

/-- The instruction the used fields name, whatever stands in the others. -/
def candidate (f : Fields) : Option Instr :=
  match f.op.toNat with
  | 0x01 => candAlu f
  | 0x02 => candAlui f
  | 0x03 => candMovl f
  | 0x04 => candPcrel f
  | 0x05 => candCmp f
  | 0x06 => candCmpi f
  | 0x07 => candPred f
  | 0x08 => candSel f
  | 0x09 => candCsr f
  | 0x20 => candB f
  | 0x21 => candBp f
  | 0x22 => candJmp f
  | 0x23 => candJal f
  | 0x24 => candJalr f
  | 0x25 => candLoop f
  | 0x26 => candGuard f
  | 0x28 => candQput f
  | 0x29 => candQget f
  | 0x30 => candLd f
  | 0x31 => candSt f
  | 0x32 => candLds f
  | 0x33 => candSts f
  | 0x34 => candLdx f
  | 0x35 => candStx f
  | 0x36 => candAmo f
  | 0x37 => candCas f
  | 0x38 => candAmox f
  | 0x39 => candFence f
  | 0x3A => candPref f
  | 0x3B => candMcst f
  | 0x3C => candWin f
  | 0x50 => candEvw f
  | 0x51 => candEvt f
  | 0x52 => candChoose f
  | 0x53 => candSignal f
  | 0x54 => candArm f
  | 0x55 => candSpawn f
  | 0x56 => candEnd f
  | 0x57 => candYield f
  | 0x58 => candBind f
  | 0x59 => candEvseq f
  | 0x60 => candVint f
  | 0x61 => candVinti f
  | 0x62 => candVfp f
  | 0x63 => candVfma f
  | 0x64 => candVcmp f
  | 0x65 => candVsel f
  | 0x66 => candVperm f
  | 0x67 => candVsplat f
  | 0x68 => candVext f
  | 0x69 => candVins f
  | 0x6A => candVcvt f
  | 0x6B => candVld f
  | 0x6C => candVst f
  | 0x6D => candVls f
  | 0x6E => candVgath f
  | 0x6F => candVscat f
  | 0x70 => candVhadd f
  | 0x71 => candMask f
  | 0x72 => candVxg f
  | 0x73 => candGang f
  | 0x74 => candVmov f
  | 0x90 => candTcfg f
  | 0x91 => candTld f
  | 0x92 => candTst f
  | 0x93 => candTzero f
  | 0x94 => candMma f
  | 0x95 => candCzero f
  | 0x96 => candCldst f
  | 0x97 => candCdrain f
  | 0x98 => candCrecv f
  | 0x99 => candCcvt f
  | 0x9A => candTtr f
  | 0x9B => candMx f
  | 0xB0 => candSkinit f
  | 0xB1 => candSkadd f
  | 0xB2 => candSkmerge f
  | 0xB3 => candSkqry f
  | 0xC0 => candCpy f
  | 0xC1 => candCpysk f
  | 0xC2 => candColl f
  | 0xC3 => candTxe f
  | 0xC4 => candTxd f
  | 0xC5 => candVocab f
  | 0xD0 => candTrap f
  | 0xD1 => candBrk f
  | 0xD2 => candEret f
  | 0xD3 => candXlinv f
  | 0xD4 => candCtx f
  | 0xD5 => candKnotop f
  | 0xD6 => candIdle f
  | 0x27 => candNop f
  | _ => none

/-! ### The encoder -/

/-- Bits 18:0 (R90). -/
def hdrBits (h : Hdr) (op : BitVec 8) (len : BitVec 2) : BitVec 19 :=
  BitVec.ofBool h.guard.isSome ++ (h.guard.getD 0#3) ++ BitVec.ofBool h.pn ++ h.pq ++ op ++ len
/-- The R body (R92). -/
def bodyR (h : Hdr) (op : BitVec 8) (len : BitVec 2) (d a b c : BitVec 5) (fn : Nat) (imm : BitVec 16) : BitVec 64 :=
  imm ++ BitVec.ofNat 9 fn ++ c ++ b ++ a ++ d ++ hdrBits h op len
def wordR (h : Hdr) (op : BitVec 8) (d a b c : BitVec 5) (fn : Nat) (imm : BitVec 16) : BitVec 128 :=
  0#64 ++ bodyR h op 0#2 d a b c fn imm
/-- The I format (R92). -/
def wordI (h : Hdr) (op : BitVec 8) (d a : BitVec 5) (fn : Nat) (imm : BitVec 30) : BitVec 128 :=
  0#64 ++ (imm ++ BitVec.ofNat 5 fn ++ a ++ d ++ hdrBits h op 0#2 : BitVec 64)
/-- The B format (R92). -/
def wordB (h : Hdr) (op : BitVec 8) (a b : BitVec 5) (cond : Nat) (off : BitVec 31) : BitVec 128 :=
  0#64 ++ (off ++ BitVec.ofNat 4 cond ++ b ++ a ++ hdrBits h op 0#2 : BitVec 64)
/-- The X, M and E formats: 96 bits (R92 to R94). -/
def wordX (h : Hdr) (op : BitVec 8) (d a b c : BitVec 5) (fn : Nat) (imm : BitVec 16) (ext : BitVec 32) : BitVec 128 :=
  0#32 ++ ext ++ bodyR h op 1#2 d a b c fn imm
/-- The L format: 128 bits (R92). -/
def wordL (h : Hdr) (op : BitVec 8) (d a b c : BitVec 5) (fn : Nat) (imm : BitVec 16) (lit : BitVec 64) : BitVec 128 :=
  lit ++ bodyR h op 2#2 d a b c fn imm
/-- imm16 as the modifiers of R96. -/
def vmods (qs : BitVec 1) (lane : BitVec 4) (part : BitVec 2) (ae : BitVec 1) (mxn : BitVec 2) (inf : BitVec 1)
    (rnd : Nat) (msk : BitVec 3) : BitVec 16 :=
  qs ++ lane ++ part ++ ae ++ mxn ++ inf ++ BitVec.ofNat 2 rnd ++ msk
/-- ext32 of the E format (R93). -/
def evExt (ev : BitVec 20) (pay : Option PayOp) : BitVec 32 :=
  match pay with
  | none => 0#12 ++ ev
  | some p => 0#9 ++ (if p.inC then 2#2 else 1#2) ++ 1#1 ++ ev
def payA : Option PayOp → BitVec 5
  | none => 0#5
  | some p => p.a
def payImm : Option PayOp → BitVec 16
  | none => 0#16
  | some p => p.imm

/-- The bits of an instruction; none for a module step, which has no word, and for the row of unassigned words. -/
def encode : Instr → Option (BitVec 128)
  | .add h d a b => some (wordR h 0x01#8 d a b 0#5 0 0#16)
  | .sub h d a b => some (wordR h 0x01#8 d a b 0#5 1 0#16)
  | .and h d a b => some (wordR h 0x01#8 d a b 0#5 2 0#16)
  | .or h d a b => some (wordR h 0x01#8 d a b 0#5 3 0#16)
  | .xor h d a b => some (wordR h 0x01#8 d a b 0#5 4 0#16)
  | .andn h d a b => some (wordR h 0x01#8 d a b 0#5 5 0#16)
  | .shl h d a b => some (wordR h 0x01#8 d a b 0#5 6 0#16)
  | .shr h d a b => some (wordR h 0x01#8 d a b 0#5 7 0#16)
  | .sar h d a b => some (wordR h 0x01#8 d a b 0#5 8 0#16)
  | .ror h d a b => some (wordR h 0x01#8 d a b 0#5 9 0#16)
  | .min h d a b => some (wordR h 0x01#8 d a b 0#5 10 0#16)
  | .max h d a b => some (wordR h 0x01#8 d a b 0#5 11 0#16)
  | .minu h d a b => some (wordR h 0x01#8 d a b 0#5 12 0#16)
  | .maxu h d a b => some (wordR h 0x01#8 d a b 0#5 13 0#16)
  | .mul h d a b => some (wordR h 0x01#8 d a b 0#5 14 0#16)
  | .mulh h d a b => some (wordR h 0x01#8 d a b 0#5 15 0#16)
  | .mulhu h d a b => some (wordR h 0x01#8 d a b 0#5 16 0#16)
  | .div h d a b => some (wordR h 0x01#8 d a b 0#5 17 0#16)
  | .divu h d a b => some (wordR h 0x01#8 d a b 0#5 18 0#16)
  | .rem h d a b => some (wordR h 0x01#8 d a b 0#5 19 0#16)
  | .remu h d a b => some (wordR h 0x01#8 d a b 0#5 20 0#16)
  | .addw h d a b => some (wordR h 0x01#8 d a b 0#5 21 0#16)
  | .subw h d a b => some (wordR h 0x01#8 d a b 0#5 22 0#16)
  | .mulw h d a b => some (wordR h 0x01#8 d a b 0#5 23 0#16)
  | .clz h d a => some (wordR h 0x01#8 d a 0#5 0#5 24 0#16)
  | .ctz h d a => some (wordR h 0x01#8 d a 0#5 0#5 25 0#16)
  | .popc h d a => some (wordR h 0x01#8 d a 0#5 0#5 26 0#16)
  | .bswap h d a => some (wordR h 0x01#8 d a 0#5 0#5 27 0#16)
  | .sext h d a n => some (wordR h 0x01#8 d a 0#5 0#5 28 (n.setWidth 16))
  | .zext h d a n => some (wordR h 0x01#8 d a 0#5 0#5 29 (n.setWidth 16))
  | .bfx h d a lsb width => some (wordR h 0x01#8 d a 0#5 0#5 30 (0#3 ++ width ++ lsb))
  | .bfi h d a lsb width => some (wordR h 0x01#8 d a 0#5 0#5 31 (0#3 ++ width ++ lsb))
  | .addi h d a imm => some (wordI h 0x02#8 d a 0 imm)
  | .andi h d a imm => some (wordI h 0x02#8 d a 2 imm)
  | .ori h d a imm => some (wordI h 0x02#8 d a 3 imm)
  | .xori h d a imm => some (wordI h 0x02#8 d a 4 imm)
  | .shli h d a n => some (wordI h 0x02#8 d a 6 (n.setWidth 30))
  | .shri h d a n => some (wordI h 0x02#8 d a 7 (n.setWidth 30))
  | .sari h d a n => some (wordI h 0x02#8 d a 8 (n.setWidth 30))
  | .rori h d a n => some (wordI h 0x02#8 d a 9 (n.setWidth 30))
  | .mini h d a imm => some (wordI h 0x02#8 d a 10 imm)
  | .maxi h d a imm => some (wordI h 0x02#8 d a 11 imm)
  | .addwi h d a imm => some (wordI h 0x02#8 d a 21 imm)
  | .movl h d lit => some (wordL h 0x03#8 d 0#5 0#5 0#5 0 0#16 lit)
  | .pcrel h d off => some (wordX h 0x04#8 d 0#5 0#5 0#5 0 0#16 off)
  | .cmp h cond d a b => some (wordR h 0x05#8 (d.setWidth 5) a b 0#5 cond.code 0#16)
  | .cmpi h cond d a imm => some (wordI h 0x06#8 (d.setWidth 5) a cond.code imm)
  | .pand h d a b => some (wordR h 0x07#8 (d.setWidth 5) (a.setWidth 5) (b.setWidth 5) 0#5 0 0#16)
  | .por h d a b => some (wordR h 0x07#8 (d.setWidth 5) (a.setWidth 5) (b.setWidth 5) 0#5 1 0#16)
  | .pxor h d a b => some (wordR h 0x07#8 (d.setWidth 5) (a.setWidth 5) (b.setWidth 5) 0#5 2 0#16)
  | .pandn h d a b => some (wordR h 0x07#8 (d.setWidth 5) (a.setWidth 5) (b.setWidth 5) 0#5 3 0#16)
  | .pnot h d a => some (wordR h 0x07#8 (d.setWidth 5) (a.setWidth 5) 0#5 0#5 4 0#16)
  | .pmov h d a => some (wordR h 0x07#8 (d.setWidth 5) (a.setWidth 5) 0#5 0#5 5 0#16)
  | .pset h d v => some (wordR h 0x07#8 (d.setWidth 5) 0#5 0#5 0#5 6 (v.setWidth 16))
  | .sel h d c a b => some (wordR h 0x08#8 d a b (c.setWidth 5) 0 0#16)
  | .csrr h d csr => some (wordI h 0x09#8 d 0#5 0 (csr.setWidth 30))
  | .csrw h csr a => some (wordI h 0x09#8 0#5 a 1 (csr.setWidth 30))
  | .csrs h csr a => some (wordI h 0x09#8 0#5 a 2 (csr.setWidth 30))
  | .csrc h csr a => some (wordI h 0x09#8 0#5 a 3 (csr.setWidth 30))
  | .b h cond a b off => some (wordB h 0x20#8 a b cond.code off)
  | .bp h neg a off => some (wordB h 0x21#8 (a.setWidth 5) 0#5 neg.toNat off)
  | .jmp h off => some (wordB h 0x22#8 0#5 0#5 0 off)
  | .jal h d imm => some (wordI h 0x23#8 d 0#5 0 imm)
  | .jalr h d a imm => some (wordI h 0x24#8 d a 0 imm)
  | .loop h lc src off => some (wordX h 0x25#8 0#5 src.regField 0#5 0#5 (lc.toNat + 2 * src.code) src.immField off)
  | .gset h d a => some (wordR h 0x26#8 (d.setWidth 5) (a.setWidth 5) 0#5 0#5 0 0#16)
  | .gkill h d => some (wordR h 0x26#8 (d.setWidth 5) 0#5 0#5 0#5 1 0#16)
  | .qput h d a => some (wordR h 0x28#8 (d.setWidth 5) a 0#5 0#5 0 0#16)
  | .qget h d a => some (wordR h 0x29#8 d (a.setWidth 5) 0#5 0#5 0 0#16)
  | .ld h wd d a off => some (wordX h 0x30#8 d a 0#5 0#5 wd.code 0#16 off)
  | .ldAq h wd d a off => some (wordX h 0x30#8 d a 0#5 0#5 (8 + wd.code) 0#16 off)
  | .st h wd b a off => some (wordX h 0x31#8 0#5 a b 0#5 wd.code 0#16 off)
  | .stRl h wd b a off => some (wordX h 0x31#8 0#5 a b 0#5 (8 + wd.code) 0#16 off)
  | .lds h buf wd d a off => some (wordX h 0x32#8 d a 0#5 0#5 (16 * buf.code + wd.code) 0#16 off)
  | .sts h buf wd b a off => some (wordX h 0x33#8 0#5 a b 0#5 (16 * buf.code + wd.code) 0#16 off)
  | .ldx h buf wd d b a off => some (wordX h 0x34#8 d a b 0#5 (16 * buf.code + wd.code) 0#16 off)
  | .stx h buf wd b c a off => some (wordX h 0x35#8 0#5 a b c (16 * buf.code + wd.code) 0#16 off)
  | .stxT h buf wd b c a off => some (wordX h 0x35#8 0#5 a b c (16 * buf.code + 8 + wd.code) 0#16 off)
  | .amoAdd h dbl d a b off => some (wordX h 0x36#8 d a b 0#5 (0 + dbl.toNat) 0#16 off)
  | .amoAnd h dbl d a b off => some (wordX h 0x36#8 d a b 0#5 (2 + dbl.toNat) 0#16 off)
  | .amoOr h dbl d a b off => some (wordX h 0x36#8 d a b 0#5 (4 + dbl.toNat) 0#16 off)
  | .amoXor h dbl d a b off => some (wordX h 0x36#8 d a b 0#5 (6 + dbl.toNat) 0#16 off)
  | .amoMin h dbl d a b off => some (wordX h 0x36#8 d a b 0#5 (8 + dbl.toNat) 0#16 off)
  | .amoMax h dbl d a b off => some (wordX h 0x36#8 d a b 0#5 (10 + dbl.toNat) 0#16 off)
  | .amoMinu h dbl d a b off => some (wordX h 0x36#8 d a b 0#5 (12 + dbl.toNat) 0#16 off)
  | .amoMaxu h dbl d a b off => some (wordX h 0x36#8 d a b 0#5 (14 + dbl.toNat) 0#16 off)
  | .amoSwap h dbl d a b off => some (wordX h 0x36#8 d a b 0#5 (16 + dbl.toNat) 0#16 off)
  | .cas h dbl d a b c off => some (wordX h 0x37#8 d a b c dbl.toNat 0#16 off)
  | .amoxAdd h buf dbl d b c a off => some (wordX h 0x38#8 d a b c (32 * buf.code + 0 + dbl.toNat) 0#16 off)
  | .amoxAnd h buf dbl d b c a off => some (wordX h 0x38#8 d a b c (32 * buf.code + 2 + dbl.toNat) 0#16 off)
  | .amoxOr h buf dbl d b c a off => some (wordX h 0x38#8 d a b c (32 * buf.code + 4 + dbl.toNat) 0#16 off)
  | .amoxXor h buf dbl d b c a off => some (wordX h 0x38#8 d a b c (32 * buf.code + 6 + dbl.toNat) 0#16 off)
  | .amoxMin h buf dbl d b c a off => some (wordX h 0x38#8 d a b c (32 * buf.code + 8 + dbl.toNat) 0#16 off)
  | .amoxMax h buf dbl d b c a off => some (wordX h 0x38#8 d a b c (32 * buf.code + 10 + dbl.toNat) 0#16 off)
  | .amoxMinu h buf dbl d b c a off => some (wordX h 0x38#8 d a b c (32 * buf.code + 12 + dbl.toNat) 0#16 off)
  | .amoxMaxu h buf dbl d b c a off => some (wordX h 0x38#8 d a b c (32 * buf.code + 14 + dbl.toNat) 0#16 off)
  | .amoxSwap h buf dbl d b c a off => some (wordX h 0x38#8 d a b c (32 * buf.code + 16 + dbl.toNat) 0#16 off)
  | .fence h scope pred succ => some (wordR h 0x39#8 0#5 0#5 0#5 0#5 scope.code (0#2 ++ succ ++ pred))
  | .pref h a off => some (wordX h 0x3A#8 0#5 a 0#5 0#5 0 0#16 off)
  | .prefSt h a off => some (wordX h 0x3A#8 0#5 a 0#5 0#5 1 0#16 off)
  | .mcst h buf wd b c a off => some (wordX h 0x3B#8 0#5 a b c (16 * buf.code + wd.code) 0#16 off)
  | .winset h n a => some (wordR h 0x3C#8 (n.setWidth 5) a 0#5 0#5 0 0#16)
  | .winclr h n => some (wordR h 0x3C#8 (n.setWidth 5) 0#5 0#5 0#5 1 0#16)
  | .evw h ev b pay c => some (wordX h 0x50#8 0#5 (payA pay) b c 0 (payImm pay) (evExt ev pay))
  | .evt h ev b pay => some (wordX h 0x51#8 0#5 (payA pay) b 0#5 0 (payImm pay) (evExt ev pay))
  | .chooseW h n a imm c => some (wordR h 0x52#8 n a 0#5 c 0 imm)
  | .chooseT h n a imm => some (wordR h 0x52#8 n a 0#5 0#5 1 imm)
  | .signal h ev b pay => some (wordX h 0x53#8 0#5 (payA pay) b 0#5 0 (payImm pay) (evExt ev pay))
  | .armReg h ev b a => some (wordX h 0x54#8 0#5 a b 0#5 0 0#16 (evExt ev none))
  | .armImm h ev b n => some (wordX h 0x54#8 0#5 0#5 b 0#5 1 n (evExt ev none))
  | .spawn h a imm => some (wordR h 0x55#8 0#5 a 0#5 0#5 0 imm)
  | .endTask h => some (wordR h 0x56#8 0#5 0#5 0#5 0#5 0 0#16)
  | .yield h c => some (wordR h 0x57#8 0#5 0#5 0#5 c 0 0#16)
  | .bind h ev b a depth => some (wordX h 0x58#8 0#5 a b 0#5 0 depth (evExt ev none))
  | .unbind h ev b => some (wordX h 0x58#8 0#5 0#5 b 0#5 1 0#16 (evExt ev none))
  | .evseq h d ev b => some (wordX h 0x59#8 d 0#5 b 0#5 0 0#16 (evExt ev none))
  | .vadd h l d a b m => some (wordR h 0x60#8 d a b 0#5 (0 + l.code) (vmods 0#1 0#4 0#2 0#1 0#2 0#1 0 m))
  | .vsub h l d a b m => some (wordR h 0x60#8 d a b 0#5 (4 + l.code) (vmods 0#1 0#4 0#2 0#1 0#2 0#1 0 m))
  | .vmul h l d a b m => some (wordR h 0x60#8 d a b 0#5 (8 + l.code) (vmods 0#1 0#4 0#2 0#1 0#2 0#1 0 m))
  | .vmulh h l d a b m => some (wordR h 0x60#8 d a b 0#5 (12 + l.code) (vmods 0#1 0#4 0#2 0#1 0#2 0#1 0 m))
  | .vmin h l d a b m => some (wordR h 0x60#8 d a b 0#5 (16 + l.code) (vmods 0#1 0#4 0#2 0#1 0#2 0#1 0 m))
  | .vmax h l d a b m => some (wordR h 0x60#8 d a b 0#5 (20 + l.code) (vmods 0#1 0#4 0#2 0#1 0#2 0#1 0 m))
  | .vminu h l d a b m => some (wordR h 0x60#8 d a b 0#5 (24 + l.code) (vmods 0#1 0#4 0#2 0#1 0#2 0#1 0 m))
  | .vmaxu h l d a b m => some (wordR h 0x60#8 d a b 0#5 (28 + l.code) (vmods 0#1 0#4 0#2 0#1 0#2 0#1 0 m))
  | .vand h l d a b m => some (wordR h 0x60#8 d a b 0#5 (32 + l.code) (vmods 0#1 0#4 0#2 0#1 0#2 0#1 0 m))
  | .vor h l d a b m => some (wordR h 0x60#8 d a b 0#5 (36 + l.code) (vmods 0#1 0#4 0#2 0#1 0#2 0#1 0 m))
  | .vxor h l d a b m => some (wordR h 0x60#8 d a b 0#5 (40 + l.code) (vmods 0#1 0#4 0#2 0#1 0#2 0#1 0 m))
  | .vandn h l d a b m => some (wordR h 0x60#8 d a b 0#5 (44 + l.code) (vmods 0#1 0#4 0#2 0#1 0#2 0#1 0 m))
  | .vshl h l d a b m => some (wordR h 0x60#8 d a b 0#5 (48 + l.code) (vmods 0#1 0#4 0#2 0#1 0#2 0#1 0 m))
  | .vshr h l d a b m => some (wordR h 0x60#8 d a b 0#5 (52 + l.code) (vmods 0#1 0#4 0#2 0#1 0#2 0#1 0 m))
  | .vsar h l d a b m => some (wordR h 0x60#8 d a b 0#5 (56 + l.code) (vmods 0#1 0#4 0#2 0#1 0#2 0#1 0 m))
  | .vabs h l d a m => some (wordR h 0x60#8 d a 0#5 0#5 (60 + l.code) (vmods 0#1 0#4 0#2 0#1 0#2 0#1 0 m))
  | .vneg h l d a m => some (wordR h 0x60#8 d a 0#5 0#5 (64 + l.code) (vmods 0#1 0#4 0#2 0#1 0#2 0#1 0 m))
  | .vaddi h l d a imm m => some (wordI h 0x61#8 d a 0 (0#8 ++ BitVec.ofNat 2 l.code ++ 0#1 ++ m ++ imm))
  | .vsubi h l d a imm m => some (wordI h 0x61#8 d a 1 (0#8 ++ BitVec.ofNat 2 l.code ++ 0#1 ++ m ++ imm))
  | .vmini h l d a imm m => some (wordI h 0x61#8 d a 4 (0#8 ++ BitVec.ofNat 2 l.code ++ 0#1 ++ m ++ imm))
  | .vmaxi h l d a imm m => some (wordI h 0x61#8 d a 5 (0#8 ++ BitVec.ofNat 2 l.code ++ 0#1 ++ m ++ imm))
  | .vminui h l d a imm m => some (wordI h 0x61#8 d a 6 (0#8 ++ BitVec.ofNat 2 l.code ++ 0#1 ++ m ++ imm))
  | .vmaxui h l d a imm m => some (wordI h 0x61#8 d a 7 (0#8 ++ BitVec.ofNat 2 l.code ++ 0#1 ++ m ++ imm))
  | .vandi h l d a imm m => some (wordI h 0x61#8 d a 8 (0#8 ++ BitVec.ofNat 2 l.code ++ 0#1 ++ m ++ imm))
  | .vori h l d a imm m => some (wordI h 0x61#8 d a 9 (0#8 ++ BitVec.ofNat 2 l.code ++ 0#1 ++ m ++ imm))
  | .vxori h l d a imm m => some (wordI h 0x61#8 d a 10 (0#8 ++ BitVec.ofNat 2 l.code ++ 0#1 ++ m ++ imm))
  | .vandni h l d a imm m => some (wordI h 0x61#8 d a 11 (0#8 ++ BitVec.ofNat 2 l.code ++ 0#1 ++ m ++ imm))
  | .vshli h l d a imm m => some (wordI h 0x61#8 d a 12 (0#8 ++ BitVec.ofNat 2 l.code ++ 0#1 ++ m ++ imm))
  | .vshri h l d a imm m => some (wordI h 0x61#8 d a 13 (0#8 ++ BitVec.ofNat 2 l.code ++ 0#1 ++ m ++ imm))
  | .vsari h l d a imm m => some (wordI h 0x61#8 d a 14 (0#8 ++ BitVec.ofNat 2 l.code ++ 0#1 ++ m ++ imm))
  | .vfadd h t rnd d a b m => some (wordR h 0x62#8 d a b 0#5 (0 + t.code) (vmods 0#1 0#4 0#2 0#1 0#2 0#1 rnd.code m))
  | .vfsub h t rnd d a b m => some (wordR h 0x62#8 d a b 0#5 (4 + t.code) (vmods 0#1 0#4 0#2 0#1 0#2 0#1 rnd.code m))
  | .vfmul h t rnd d a b m => some (wordR h 0x62#8 d a b 0#5 (8 + t.code) (vmods 0#1 0#4 0#2 0#1 0#2 0#1 rnd.code m))
  | .vfdiv h t rnd d a b m => some (wordR h 0x62#8 d a b 0#5 (12 + t.code) (vmods 0#1 0#4 0#2 0#1 0#2 0#1 rnd.code m))
  | .vfmin h t rnd d a b m => some (wordR h 0x62#8 d a b 0#5 (16 + t.code) (vmods 0#1 0#4 0#2 0#1 0#2 0#1 rnd.code m))
  | .vfmax h t rnd d a b m => some (wordR h 0x62#8 d a b 0#5 (20 + t.code) (vmods 0#1 0#4 0#2 0#1 0#2 0#1 rnd.code m))
  | .vfsqrt h t rnd d a m => some (wordR h 0x62#8 d a 0#5 0#5 (24 + t.code) (vmods 0#1 0#4 0#2 0#1 0#2 0#1 rnd.code m))
  | .vfabs h t rnd d a m => some (wordR h 0x62#8 d a 0#5 0#5 (28 + t.code) (vmods 0#1 0#4 0#2 0#1 0#2 0#1 rnd.code m))
  | .vfneg h t rnd d a m => some (wordR h 0x62#8 d a 0#5 0#5 (32 + t.code) (vmods 0#1 0#4 0#2 0#1 0#2 0#1 rnd.code m))
  | .vfex2 h t rnd d a m => some (wordR h 0x62#8 d a 0#5 0#5 (36 + t.code) (vmods 0#1 0#4 0#2 0#1 0#2 0#1 rnd.code m))
  | .vflg2 h t rnd d a m => some (wordR h 0x62#8 d a 0#5 0#5 (40 + t.code) (vmods 0#1 0#4 0#2 0#1 0#2 0#1 rnd.code m))
  | .vfma h t rnd d a b c m => some (wordR h 0x63#8 d a b c (0 + t.code) (vmods 0#1 0#4 0#2 0#1 0#2 0#1 rnd.code m))
  | .vfms h t rnd d a b c m => some (wordR h 0x63#8 d a b c (4 + t.code) (vmods 0#1 0#4 0#2 0#1 0#2 0#1 rnd.code m))
  | .vfnma h t rnd d a b c m => some (wordR h 0x63#8 d a b c (8 + t.code) (vmods 0#1 0#4 0#2 0#1 0#2 0#1 rnd.code m))
  | .vcmp h cond t d a b m => some (wordR h 0x64#8 (d.setWidth 5) a b 0#5 (8 * cond.code + t.code) (vmods 0#1 0#4 0#2 0#1 0#2 0#1 0 m))
  | .vsel h d a b m => some (wordR h 0x65#8 d a b 0#5 0 (vmods 0#1 0#4 0#2 0#1 0#2 0#1 0 m))
  | .vperm h l d a b m => some (wordR h 0x66#8 d a b 0#5 l.code (vmods 0#1 0#4 0#2 0#1 0#2 0#1 0 m))
  | .vsplat h l d src m => some (wordR h 0x67#8 d src.field 0#5 0#5 l.code (vmods src.qsBit 0#4 0#2 0#1 0#2 0#1 0 m))
  | .vext h l d a ix => some (wordR h 0x68#8 d a 0#5 0#5 l.code (vmods 0#1 ix 0#2 0#1 0#2 0#1 0 0#3))
  | .vins h l d src ix m => some (wordR h 0x69#8 d src.field 0#5 0#5 l.code (vmods src.qsBit ix 0#2 0#1 0#2 0#1 0 m))
  | .vcvt h src dst part rnd inf d a sc ae mxn m => some (wordR h 0x6A#8 d a sc.field 0#5 (8 * src.code + dst.code) (vmods sc.qsBit 0#4 part ae mxn inf rnd.code m))
  | .vld h d a off m => some (wordX h 0x6B#8 d a 0#5 0#5 0 (vmods 0#1 0#4 0#2 0#1 0#2 0#1 0 m) off)
  | .vst h b a off m => some (wordX h 0x6C#8 0#5 a b 0#5 0 (vmods 0#1 0#4 0#2 0#1 0#2 0#1 0 m) off)
  | .vlds h buf d a off m => some (wordX h 0x6D#8 d a 0#5 0#5 (16 * buf.code) (vmods 0#1 0#4 0#2 0#1 0#2 0#1 0 m) off)
  | .vsts h buf b a off m => some (wordX h 0x6D#8 0#5 a b 0#5 (16 * buf.code + 1) (vmods 0#1 0#4 0#2 0#1 0#2 0#1 0 m) off)
  | .vgath h sp l d a b off m => some (wordX h 0x6E#8 d a b 0#5 (4 * sp.code + l.code) (vmods 0#1 0#4 0#2 0#1 0#2 0#1 0 m) off)
  | .vscat h sp l a b c off m => some (wordX h 0x6F#8 0#5 a b c (4 * sp.code + l.code) (vmods 0#1 0#4 0#2 0#1 0#2 0#1 0 m) off)
  | .vhadd h t rnd d a m => some (wordR h 0x70#8 d a 0#5 0#5 t.code (vmods 0#1 0#4 0#2 0#1 0#2 0#1 rnd.code m))
  | .mand h d a b => some (wordR h 0x71#8 (d.setWidth 5) (a.setWidth 5) (b.setWidth 5) 0#5 0 0#16)
  | .mor h d a b => some (wordR h 0x71#8 (d.setWidth 5) (a.setWidth 5) (b.setWidth 5) 0#5 1 0#16)
  | .mxor h d a b => some (wordR h 0x71#8 (d.setWidth 5) (a.setWidth 5) (b.setWidth 5) 0#5 2 0#16)
  | .mnot h d a => some (wordR h 0x71#8 (d.setWidth 5) (a.setWidth 5) 0#5 0#5 3 0#16)
  | .mset h d imm => some (wordR h 0x71#8 (d.setWidth 5) 0#5 0#5 0#5 4 imm)
  | .vxg h d a ix m => some (wordR h 0x72#8 d a 0#5 0#5 0 (vmods 0#1 ix 0#2 0#1 0#2 0#1 0 m))
  | .gangOn h => some (wordR h 0x73#8 0#5 0#5 0#5 0#5 0 0#16)
  | .gangOff h => some (wordR h 0x73#8 0#5 0#5 0#5 0#5 1 0#16)
  | .vmov h d a m => some (wordR h 0x74#8 d a 0#5 0#5 0 (vmods 0#1 0#4 0#2 0#1 0#2 0#1 0 m))
  | .vmovg h d src m => some (wordR h 0x74#8 d src.fieldA src.fieldB 0#5 1 (vmods src.qsBit 0#4 0#2 0#1 0#2 0#1 0 m))
  | .tcfg h d a => some (wordR h 0x90#8 (d.setWidth 5) a 0#5 0#5 0 0#16)
  | .tld h mem d a imm stride lay sc => some (wordX h 0x91#8 (d.setWidth 5) a 0#5 0#5 mem.fnCode imm (stride ++ 0#10 ++ mem.bufBits ++ BitVec.ofNat 2 sc.code ++ BitVec.ofNat 2 lay.code))
  | .tst h mem b a imm stride lay => some (wordX h 0x92#8 0#5 a (b.setWidth 5) 0#5 mem.fnCode imm (stride ++ 0#10 ++ mem.bufBits ++ 0#2 ++ BitVec.ofNat 2 lay.code))
  | .tzero h d => some (wordR h 0x93#8 (d.setWidth 5) 0#5 0#5 0#5 0 0#16)
  | .mma h d a b => some (wordR h 0x94#8 (d.setWidth 5) (a.setWidth 5) (b.setWidth 5) 0#5 0 0#16)
  | .czero h d => some (wordR h 0x95#8 (d.setWidth 5) 0#5 0#5 0#5 0 0#16)
  | .cld h d a off => some (wordX h 0x96#8 (d.setWidth 5) a 0#5 0#5 0 0#16 off)
  | .cst h b a off => some (wordX h 0x96#8 0#5 a (b.setWidth 5) 0#5 1 0#16 off)
  | .cdrainWAdd h d ev b c => some (wordX h 0x97#8 (d.setWidth 5) 0#5 b c 0 0#16 (evExt ev none))
  | .cdrainWMov h d ev b c => some (wordX h 0x97#8 (d.setWidth 5) 0#5 b c 1 0#16 (evExt ev none))
  | .cdrainTAdd h d ev b => some (wordX h 0x97#8 (d.setWidth 5) 0#5 b 0#5 2 0#16 (evExt ev none))
  | .cdrainTMov h d ev b => some (wordX h 0x97#8 (d.setWidth 5) 0#5 b 0#5 3 0#16 (evExt ev none))
  | .crecvW h d ev b c => some (wordX h 0x98#8 (d.setWidth 5) 0#5 b c 0 0#16 (evExt ev none))
  | .crecvT h d ev b => some (wordX h 0x98#8 (d.setWidth 5) 0#5 b 0#5 1 0#16 (evExt ev none))
  | .ccvt h dst rnd inf cb d a sc ae mxn => some (wordR h 0x99#8 (d.setWidth 5) (a.setWidth 5) sc.field 0#5 dst.code (vmods sc.qsBit cb 0#2 ae mxn inf rnd.code 0#3))
  | .ttr h d a => some (wordR h 0x9A#8 (d.setWidth 5) (a.setWidth 5) 0#5 0#5 0 0#16)
  | .mxr h d a => some (wordR h 0x9B#8 d (a.setWidth 5) 0#5 0#5 0 0#16)
  | .mxclr h d => some (wordR h 0x9B#8 (d.setWidth 5) 0#5 0#5 0#5 1 0#16)
  | .skinit h t a imm => some (wordR h 0xB0#8 0#5 a 0#5 0#5 t.code imm)
  | .skqadd h b a imm m => some (wordR h 0xB1#8 0#5 a b (m.setWidth 5) 0 imm)
  | .skhadd h b a imm m => some (wordR h 0xB1#8 0#5 a b (m.setWidth 5) 1 imm)
  | .skdadd h b a imm m => some (wordR h 0xB1#8 0#5 a b (m.setWidth 5) 2 imm)
  | .skmadd h b a imm m => some (wordR h 0xB1#8 0#5 a b (m.setWidth 5) 3 imm)
  | .skmerge h b a imm => some (wordR h 0xB2#8 0#5 a b 0#5 0 imm)
  | .skquant h d b a imm => some (wordR h 0xB3#8 d a b 0#5 0 imm)
  | .sktopk h d b a imm => some (wordR h 0xB3#8 d a b 0#5 1 imm)
  | .skcard h d a imm => some (wordR h 0xB3#8 d a 0#5 0#5 2 imm)
  | .skmom h d b a imm => some (wordR h 0xB3#8 d a b 0#5 3 imm)
  | .cpy h d a imm => some (wordR h 0xC0#8 d a 0#5 0#5 0 imm)
  | .cpyT h d a imm => some (wordR h 0xC0#8 d a 0#5 0#5 1 imm)
  | .cpysk h d b a imm => some (wordR h 0xC1#8 d a b 0#5 0 imm)
  | .coll h d a imm => some (wordR h 0xC2#8 d a 0#5 0#5 0 imm)
  | .txe h d a imm => some (wordR h 0xC3#8 d a 0#5 0#5 0 imm)
  | .txd h d a imm => some (wordR h 0xC4#8 d a 0#5 0#5 0 imm)
  | .vocab h d a imm => some (wordR h 0xC5#8 d a 0#5 0#5 0 imm)
  | .trap h imm => some (wordI h 0xD0#8 0#5 0#5 0 imm)
  | .brk h imm => some (wordI h 0xD1#8 0#5 0#5 0 imm)
  | .eret h => some (wordR h 0xD2#8 0#5 0#5 0#5 0#5 0 0#16)
  | .xlinv h => some (wordR h 0xD3#8 0#5 0#5 0#5 0#5 0 0#16)
  | .xlinvCtx h a => some (wordR h 0xD3#8 0#5 a 0#5 0#5 1 0#16)
  | .xlinvVa h a b => some (wordR h 0xD3#8 0#5 a b 0#5 2 0#16)
  | .ctxsave h a => some (wordR h 0xD4#8 0#5 a 0#5 0#5 0 0#16)
  | .ctxload h a => some (wordR h 0xD4#8 0#5 a 0#5 0#5 1 0#16)
  | .knotopRd h d a => some (wordR h 0xD5#8 d a 0#5 0#5 0 0#16)
  | .knotopWr h a b => some (wordR h 0xD5#8 0#5 a b 0#5 1 0#16)
  | .knotopPurge h a => some (wordR h 0xD5#8 0#5 a 0#5 0#5 2 0#16)
  | .knotopCancel h a => some (wordR h 0xD5#8 0#5 a 0#5 0#5 3 0#16)
  | .idle h => some (wordR h 0xD6#8 0#5 0#5 0#5 0#5 0 0#16)
  | .nop => some (0#118 ++ 0x27#8 ++ 0#2)
  | .nopX => some (0#118 ++ 0x27#8 ++ 1#2)
  | .nopL => some (0#118 ++ 0x27#8 ++ 2#2)
  | .remoteRequest => none
  | .remoteReply => none
  | .offer => none
  | .claim => none
  | .grant => none
  | .revoke => none
  | .released => none
  | .release => none
  | .refuse => none
  | .commit => none
  | .withdraw => none
  | .tilePayload => none
  | .deadline => none
  | .agedSweep => none
  | .fullBackoff => none
  | .budgetExpiry => none
  | .combiningLineTimeout => none
  | .taskDispatch => none
  | .steal => none
  | .handlerActivation => none
  | .copyJob => none
  | .jobTranslationResume => none
  | .collective => none
  | .abortColl => none
  | .collectiveDeadline => none
  | .userRoutine => none
  | .userRoutineOverrun => none
  | .txeJob => none
  | .txdJob => none
  | .vocabJob => none
  | .pageWalk => none
  | .textFrame => none
  | .tokenChunk => none
  | .missingFrameTimeout => none
  | .openNotice => none
  | .endNotice => none
  | .dropNotice => none
  | .detokeniseChunk => none
  | .kick => none
  | .launchAccept => none
  | .launchStart => none
  | .launchComplete => none
  | .reset => none
  | .ctxCreate => none
  | .ctxDestroy => none
  | .queueCfg => none
  | .launchEnd => none
  | .textAttach => none
  | .vocabLoad => none
  | .trackStart => none
  | .harvest => none
  | .quiesce => none
  | .save => none
  | .load => none
  | .resume => none
  | .ckpt => none
  | .ckptLoad => none
  | .recover => none
  | .trapnext => none
  | .retry => none
  | .kill => none
  | .host => none
  | .preempt => none
  | .preemptResume => none
  | .hclrEcc => none
  | .hclrPoison => none
  | .registerWrite => none
  | .interrupt => none
  | .stageEvaluation => none
  | .graft => none
  | .placementGeneration => none
  | .packetResend => none
  | .agePromotion => none
  | .cxlMemWrite => none
  | .cxlMemRead => none
  | .heartwoodBoot => none
  | .getReport => none
  | .setTenantKey => none
  | .getIdentity => none
  | .laneMarginFail => none
  | .linkTimeout => none
  | .linkRetrain => none
  | .flitReplay => none
  | .monitorSample => none
  | .patrolScrub => none
  | .powerCapWindow => none
  | .thermalThrottle => none
  | .thermalTrip => none
  | .healthWindowUpdate => none
  | .unassignedOpcode => none
  | .globalAccessPerformed => none
  | .globalAccessReply => none
  | .ultraEthernetMessage => none
  | .coreFailure => none
  | .hostLinkDown => none
  | .linkStepDone => none

/-! ### The decoder -/

/-- Why a word is no instruction (R100 steps 3 to 8); each is a trap ILLEGAL. -/
inductive Reject where
  | function   -- an fn, cond or LEN value the opcode does not have (steps 4 and 5)
  | reserved   -- a nonzero reserved field, an unassigned code, or a register field out of range (steps 4 to 7)
  | guard      -- a guard the opcode does not allow (step 8)
  | value      -- an immediate field whose value is refused at decode (step 6)
  deriving DecidableEq, Repr

/-- What a word decodes to. -/
inductive Decoded where
  | instr (i : Instr)
  | illegal (why : Reject)
  deriving DecidableEq, Repr

/-- The length in bytes that LEN gives; none for LEN = 11 (R88, R90). -/
def lenBytes (len : BitVec 2) : Option Nat :=
  match len.toNat with
  | 0 => some 8
  | 1 => some 12
  | 2 => some 16
  | _ => none

/-- Decoding an instruction's bits (R100): an unassigned opcode, or LEN 11, is the row UNASSIGNED_OPCODE. -/
def decode (w : BitVec 128) : Decoded :=
  let f : Fields := ⟨w⟩
  if lenBytes f.len = none || !assigned f.op.toNat then .instr .unassignedOpcode
  else match candidate f with
    | none => .illegal .function
    | some i =>
      if encode i != some w then .illegal .reserved
      else if !i.guardOk then .illegal .guard
      else if !i.valuesOk then .illegal .value
      else .instr i

/-- Little-endian value of a byte string (R1). -/
def leNat : List Byte → Nat
  | [] => 0
  | b :: bs => b.toNat + 256 * leNat bs
/-- The n low bytes of x, little-endian (R1). -/
def natBytes : Nat → Nat → List Byte
  | 0, _ => []
  | n + 1, x => BitVec.ofNat 8 x :: natBytes n (x / 256)

/-- Decoding the bytes of one instruction, lowest address first (R87). -/
def decodeBytes (bs : List Byte) : Decoded := decode (BitVec.ofNat 128 (leNat bs))

/-- The instruction the decoder reads from bits numbered as spec/opcode_table.json numbers them. -/
def decodeTableWord (nbits w : Nat) : Option Instr :=
  match decodeBytes (natBytes 16 (w % 2 ^ nbits)) with
  | .instr i => some i
  | .illegal _ => none

end Sys2Proof
end

