-- ==== Sys2Proof/Config.lean ====
section
/-! DEFINITION. The constants of one part and the free values: what the spec leaves to the implementation, to a
published standard it only names, or to nobody. Every constant below is opaque: no proof can see its value, so a
statement about the model holds whatever it is. The log entry of each is named beside it. -/

namespace Sys2Proof.Config

/-- Which of the enabled steps happens next (DESIGN CHOICE, log 5). -/
opaque pick : Nat → Nat
/-- Nanoseconds of TIME that pass in a step (DESIGN CHOICE, log 4). -/
opaque elapse : Nat → Nat
/-- Arithmetic cycles that pass in a step (DESIGN CHOICE, log 4). -/
opaque cycles : Nat → Nat
/-- Which of the free places firmware takes for a save image or a record beyond the 64 of a core (R333; DESIGN CHOICE,
log 39). -/
opaque place : Nat → Nat
/-- What stands behind a physical address above the vaults: 0xFFFF host memory, any other number that peer part's
memory (R30, R146; DEDUCED, log 8). -/
opaque backing : Nat → Nat
/-- The twig switch that a cluster hangs under; the spec gives no table of them (R302; DESIGN CHOICE, log 27). -/
opaque twig : Nat → Nat
/-- A byte the spec leaves open: DST of an aborted collective (R257), or of one whose DST overlaps its SRC (R216), a
region of a stolen task that another task has touched (R320), sensor values (DESIGN CHOICE, log 9). -/
opaque freeByte : Nat → Byte
/-- The 32 bytes that the report signer adds to a signature of a message, which FIPS 204 leaves to the signer (R347; DESIGN
CHOICE, log 7). -/
opaque signNonce : List Byte → BitVec 256
/-- The fused device secret (R347; DESIGN CHOICE, log 10). -/
opaque deviceSecret : BitVec 512
/-- The fused hash of the vendor key (R343; DESIGN CHOICE, log 10). -/
opaque vendorKeyHash : BitVec 512
/-- MR0, set at manufacture (R345; DESIGN CHOICE, log 10). -/
opaque mr0 : BitVec 512
/-- Whether the fuses forbid every image (R344; DESIGN CHOICE, log 10). -/
opaque fusesForbid : Bool
end Sys2Proof.Config
end

