-- ==== Sys2Proof/Machine/State.lean ====
section
/-! DEFINITION. The state of the part: every register, buffer, queue, record and table the spec gives it, as plain
data, with the stops of the model and the state right after reset. INVENTORY.md lists each field with its rule and its
reset value. -/

namespace Sys2Proof.Machine

/-- Bytes by address in canonical form: addresses strictly rising, no entry equal to zero, which is what an unlisted
address reads as (DESIGN CHOICE, log 3). The operations are in Machine/Memory.lean. -/
abbrev Memory := List Host.Cell

/-! ## Registers of a task -/

/-- A tile register: up to 2,048 bytes and its 16 FP32 scale sidecar entries (R37, R365). -/
structure Tile where
  bytes : Memory
  side : Vector Word32 16
  deriving DecidableEq, Repr
/-- A loop counter (R121). -/
structure Lc where
  count : Word32
  reload : Word32
  s : Word
  e : Word
  deriving DecidableEq, Repr
/-- A guard slot: its generation, and whether commands are bound to the current generation (R18, R333). -/
structure GuardSlot where
  gen : BitVec 16
  bound : Bool
  deriving DecidableEq, Repr
/-- The registers and task-scope CSRs of a task (R20 to R22, R33). -/
structure Regs where
  pc : Word
  g : Vector Word 32
  p : Vector Bool 16
  v : Vector VWord 32
  m : Vector (BitVec 16) 8
  t : Vector Tile 8
  /-- Element (i, n) of an accumulator is the 4 bytes from 64i + 4n (R196, R333). -/
  c : Vector Memory 8
  /-- Queue registers, oldest entry first (R16). -/
  q : Vector (List Word) 4
  k : Vector GuardSlot 8
  lc : Vector Lc 2
  mx : Vector Word32 4
  mxflag : BitVec 4
  tcfg : Vector (BitVec 20) 8
  fe : Bool
  fpflags : BitVec 6
  coinseed : Word
  live : Word
  evstat : Word
  fstat : Word
  segseq : Word
  deriving DecidableEq, Repr

/-! ## Streams and commands -/

/-- The three streams of a core (R15). -/
inductive Stream where | scalar | vector | matrix
  deriving DecidableEq, Repr
/-- Integer lane operations with two sources (R173). -/
inductive VIntOp where | add | sub | mul | mulh | min | max | minu | maxu | and | or | xor | andn | shl | shr | sar
  deriving DecidableEq, Repr
/-- Integer lane operations with one source (R173). -/
inductive VUnOp where | abs | neg
  deriving DecidableEq, Repr
/-- Floating lane operations with two sources (R175). -/
inductive FpOp where | add | sub | mul | div | min | max
  deriving DecidableEq, Repr
/-- Floating lane operations with one source (R175). -/
inductive FpUnOp where | sqrt | abs | neg | ex2 | lg2
  deriving DecidableEq, Repr
/-- Fused multiply-adds (R176). -/
inductive FmaOp where | ma | ms | nma
  deriving DecidableEq, Repr
/-- Operations on masks (R179). -/
inductive MaskOp where | and | or | xor | not
  deriving DecidableEq, Repr
/-- A scalar operand as a dispatched command holds it: the value of a g register, or a queue register that the command
reads when it executes (R86, R172). -/
inductive VSrc where | val (x : Word) | q (r : QReg)
  deriving DecidableEq, Repr
/-- Where one byte of a checked access lies: a physical address with its page kind (R31), an offset in the core's own
buffer, or an offset in the root controller's private SRAM (R343). -/
inductive Loc where
  | phys (pa : Nat) (kind : BitVec 2)
  | buf (b : Buf) (off : Nat)
  | sram (off : Nat)
  deriving DecidableEq, Repr
/-- One byte of a vector access: gang member, byte of the vector, place, and the TRAPADDR that names the byte (R183,
R184, R187, R366). -/
structure LaneAcc where
  member : Nat
  lane : Nat
  loc : Loc
  va : Word
  deriving DecidableEq, Repr
/-- How a tile load fills the sidecar (R192): each entry's scale place or 1.0, all 1.0, or unchanged. -/
inductive SideFill where
  | page (entries : List (Option (Word × List Loc)))
  | ones
  | keep
  deriving DecidableEq, Repr
/-- Layouts with the cfg code resolved (R53). -/
inductive TLay where | row | col | xor16
  deriving DecidableEq, Repr
/-- The fields of a TCFG (R37). -/
structure TCfg where
  fmt : Nat
  rows : Nat
  colb : Nat
  lay : TLay
  deriving DecidableEq, Repr
/-- A vector, matrix or summary command as it waits or executes: its scalar operands, addresses and tile
configurations are those of its dispatch (R15, R189, R190). -/
inductive VCmd where
  | vint (op : VIntOp) (l : Lane) (d a b : VReg) (m : MReg)
  | vinti (op : VIntOp) (l : Lane) (d a : VReg) (y : Word) (m : MReg)
  | vun (op : VUnOp) (l : Lane) (d a : VReg) (m : MReg)
  | vfp (op : FpOp) (t : FTy) (rnd : Rnd) (d a b : VReg) (m : MReg)
  | vfpu (op : FpUnOp) (t : FTy) (rnd : Rnd) (d a : VReg) (m : MReg)
  | vfma (op : FmaOp) (t : FTy) (rnd : Rnd) (d a b c : VReg) (m : MReg)
  | vcmp (cond : Cond) (t : VTy) (d : MReg) (a b : VReg) (m : MReg)
  | vsel (d a b : VReg) (m : MReg)
  | vperm (l : Lane) (d a b : VReg) (m : MReg)
  | vsplat (l : Lane) (d : VReg) (src : VSrc) (m : MReg)
  | vext (l : Lane) (d : GReg) (a : VReg) (ix : Nat)
  | vins (l : Lane) (d : VReg) (src : VSrc) (ix : Nat) (m : MReg)
  | vcvt (src dst : CvtTy) (part : Nat) (rnd : Rnd) (inf : Bool) (d a : VReg) (sc : Option VSrc) (ae : Option MxReg)
      (m : MReg)
  | vload (d : VReg) (accs : List LaneAcc)
  | vstore (b : VReg) (accs : List LaneAcc)
  | vgath (d : VReg) (accs zeros : List LaneAcc)
  | vscat (c : VReg) (accs : List LaneAcc)
  | vhadd (t : VTy) (rnd : Rnd) (d a : VReg) (m : MReg)
  | mask (op : MaskOp) (d a b : MReg)
  | mset (d : MReg) (imm : BitVec 16)
  | vxg (d a : VReg) (off : Int) (m : MReg)
  | vmov (d a : VReg) (m : MReg)
  | vmovg (d : VReg) (x y : VSrc) (m : MReg)
  | tld (d : TReg) (cfg : TCfg) (rows : List (Word × List Loc)) (fill : SideFill)
  | tst (b : TReg) (cfg : TCfg) (rows : List (Word × List Loc))
  | tzero (d : TReg) (cfg : TCfg)
  | mma (d : CReg) (a b : TReg) (ca cb : TCfg)
  | czero (d : CReg)
  | cld (d : CReg) (off : Nat)
  | cst (b : CReg) (off : Nat)
  | ccvt (dst : CvtTy) (rnd : Rnd) (inf : Bool) (cb : Nat) (d : TReg) (cfg : TCfg) (a : CReg) (sc : Option VSrc)
      (ae : Option MxReg)
  | ttr (d a : TReg) (cd ca : TCfg)
  | mxr (d : GReg) (a : MxReg)
  | mxclr (d : MxReg)
  | skinit (t : SkTy) (off : Nat) (seed : Word)
  | skadd (t : SkTy) (off : Nat) (b : VReg) (m : MReg) (rank : Nat)
  | skmerge (t : SkTy) (off : Nat) (buf : Buf) (soff : Nat) (rank : Nat)
  deriving DecidableEq, Repr
/-- A command in a stream's queue (R126, R227): its place in program order, its instruction, the
guard generation it is bound to until that is resolved, and the FPCTL.FE it runs under (R117). -/
structure QEntry where
  seq : Nat
  cmd : VCmd
  pc : Word
  guard : Option (KReg × BitVec 16)
  fe : Bool
  deriving DecidableEq, Repr
/-- Which streams a queue register's writer and reader are, once fixed in the segment (R16). -/
structure QRole where
  writer : Option Stream
  reader : Option Stream
  deriving DecidableEq, Repr

/-! ## A running segment -/

/-- A footprint region of a TCB, in bytes (R14). -/
structure Foot where
  buf : Buf
  base : Nat
  len : Nat
  deriving DecidableEq, Repr
/-- A task control block (R14). -/
structure Tcb where
  entry : Word
  prio : Nat
  handler : Bool
  gang : Bool
  migrate : Bool
  rank : Nat
  live : Word
  foot : List Foot
  succ : List Nat
  budget : Nat
  arg : List Word
  deriving DecidableEq, Repr
/-- A payload operand after its checks: buffer, offset and the event's S bytes (R150). -/
structure Pay where
  inC : Bool
  off : Nat
  deriving DecidableEq, Repr
/-- The engine kinds of a rank's virtual queues (R208, R334). -/
inductive EngKind where | copy | text | coll
  deriving DecidableEq, Repr
/-- What a job does. -/
inductive JobKind where | copy | tap (pair : Nat) | txe | txd | vocab | coll
  deriving DecidableEq, Repr
/-- State of a job in its virtual queue (R334); `deferred` is a COLL whose segment has not committed (R215), `held` a job
held on a missing translation (R367), `stopped` one that CTXSAVE stopped (R223). -/
inductive JobSt where | queued | running | guarded | deferred | held | stopped | done
  deriving DecidableEq, Repr
/-- Traps (R38). -/
inductive Trap where
  | illegal | priv | align | pageNp | pagePerm | kind | fmt | winNack | mcPart | evtNotMember | evtDup | evtUnarmed
  | handlerBlock | budget | streamDeadlock | sklimit | poison | break_ | user | engine | launchGroups | storeLost
  deriving DecidableEq, Repr
/-- An instruction that accesses memory: its address, its place in program order, the bits of R144 for its accesses, and
the TRAPSRC and TRAPSEQ of a report that one of its stores was lost (R146, R326, R327). -/
structure Issue where
  pc : Word
  ord : Nat
  bits : List Nat
  src : Word
  seq : Word
  deriving DecidableEq, Repr
/-- An engine job (R208 to R218, R334): issuer, captured record, progress, and the completion event it arms with the
instance armed. `dropped` says the issuing segment's abort dropped the arming (R209). `by_` is its issue: the accesses
before that place in program order are performed before the job starts (R210). -/
structure Job where
  id : Nat
  kind : JobKind
  task : Nat
  ctx : Nat
  rank : RankKey
  core : Nat
  no : Nat
  record : List Byte
  ea : Nat
  prog : Nat
  st : JobSt
  cev : Option EvKey
  dropped : Bool
  by_ : Issue
  /-- Offsets of source bytes still to be read, and the bytes read, of a row or a whole source (R210, R212). -/
  reads : List Nat
  got : Memory
  /-- Bytes still to be written, by offset in the destination row or range; and whether they have been made out. -/
  left : List (Nat × Byte)
  filled : Bool
  /-- Failed parties to which accesses of the job were lost, with the bit of R144 of the access (R146, R271), and the
  virtual addresses of the bytes of its present row that were dropped. -/
  lost : List (Nat × Nat)
  gone : List Nat
  /-- Text jobs: tokens or bytes written so far, whether CAP stopped it, and the vocabulary (R217, R218). -/
  written : Nat
  capped : Bool
  image : List Byte
  /-- Text jobs: how many output bytes there are after a token, with the source bytes it consumed (R334). -/
  marks : List (Nat × Nat)
  /-- Bytes of the rank's buffer C still to be written, once made out: RES, or the keys of a row in a tap's working copy
  (R214, R217). -/
  res : Option (List (Nat × Byte))
  /-- The tenant key that the context held when a VOCAB job started (R348). -/
  key : Option (List Byte)
  /-- What the job becomes at the end of its present row or step, when it is being stopped (R223, R316). -/
  halt : Option JobSt
  deriving DecidableEq, Repr
/-- A guarded engine issue waiting for its generation (R18, R209). -/
structure GuardIssue where
  k : KReg
  gen : BitVec 16
  job : Nat
  deriving DecidableEq, Repr
/-- The recorded outcome of a wait (R153, R154, R158). -/
structure WaitOut where
  st : Status
  ev : Nat
  inst : Nat
  alt : Nat
  deriving DecidableEq, Repr
/-- One alternative of a choice record: its event and payload operand (R157). -/
structure Alt where
  e : EvKey
  pay : Option Pay
  /-- Payload bytes of a record that no task's buffer holds (R241). -/
  bytes : List Byte
  deriving DecidableEq, Repr
/-- What a task waits with: its alternatives, the accumulator of a drain, and the liveness mask (R20, R153, R197). -/
structure WaitSpec where
  alts : List Alt
  acc : Option CReg
  drain : Bool
  mask : Word
  deriving DecidableEq, Repr
/-- How a segment ends: at a wait with its offer, at a YIELD with its liveness mask, or at an END (R23). -/
inductive Wait where
  | offer (w : WaitSpec)
  | yield (mask : Word)
  | endTask
  deriving DecidableEq, Repr
/-- What a try learns: its outcome or a trap, and the bytes that move to its accumulator (R155, R162, R199). -/
structure TryAns where
  out : WaitOut
  trap : Option Trap
  bs : List Byte
  deriving DecidableEq, Repr
/-- An entry of the deferred list, in program order (R23, R161), with the PC of its instruction. -/
inductive Deferred where
  | signal (pc : Word) (e : EvKey) (pay : Option Pay)
  | arm (pc : Word) (e : EvKey) (n : Nat)
  | spawn (pc : Word) (t : Tcb)
  | bind (pc : Word) (e : EvKey) (entry : Word) (depth : Nat)
  | unbind (pc : Word) (e : EvKey)
  | coll (pc : Word) (e : EvKey) (job : Nat)
  deriving DecidableEq, Repr
/-- A line of the combining buffer: line number, virtual address of its first byte, its bytes by physical address, time
of its first store (R268), and the bits of R144 of the stores that it holds (R146). -/
structure CombLine where
  line : Nat
  va : Word
  bytes : Memory
  t0 : Nat
  bits : List Nat
  deriving DecidableEq, Repr
/-- What a posted global access does where it is performed (R132, R135). -/
inductive FlightOp where
  | store (bytes : List (Nat × Byte))
  | load (wd : LdW) (d : GReg) (pas : List Nat)
  | amo (op : AmoOp) (dbl : Bool) (v : Word) (d : GReg) (pas : List Nat)
  | cas (dbl : Bool) (cmp new : Word) (d : GReg) (pas : List Nat)
  deriving DecidableEq, Repr
/-- A global access on its way, or the part of one that is performed by itself (R129, R131, R261): performed or not, and
the bytes it read. `grp` is the first part of its access, `elem` the element of a scatter (R184). `seq` marks an access
to an SO page, performed in order with the others so marked (R265); `acq` an LD.AQ, which nothing follows before its data
return (R134). `own` says that its segment has not been aborted (R24). -/
structure Flight where
  id : Nat
  grp : Nat
  elem : Nat
  by_ : Issue
  va : Word
  seq : Bool
  acq : Bool
  own : Bool
  op : FlightOp
  performed : Bool
  got : List Byte
  deriving DecidableEq, Repr
/-- v and m registers of a ganged member core (R186, R187). -/
structure Member where
  v : Vector VWord 32
  m : Vector (BitVec 16) 8
  deriving DecidableEq, Repr
/-- An open summary pair of the segment: its C offset, and whether its working copy was refreshed (R57, R203). -/
structure OpenPair where
  off : Nat
  refreshed : Bool
  deriving DecidableEq, Repr
/-- What kind of core: a compute core, one of the 16 root-controller cores, or a crown core in a USER routine. -/
inductive CoreKind where | compute | root | crown
  deriving DecidableEq, Repr
/-- Supervisor CSRs of a root-controller core (R220, R327, R340). -/
structure Sup where
  pie : Bool
  ie : Bool
  ppriv : Bool
  priv : Bool
  trapcode : BitVec 16
  trappc : Word
  trapaddr : Word
  trapmsg : Word
  trapseq : Word
  trapsrc : Word
  ctxrec : Word
  tvec : Word
  ipend : BitVec 4
  ctxsel : BitVec 6
  deriving DecidableEq, Repr
/-- The segment that the focused core runs, with what it has issued and deferred. -/
structure Run where
  kind : CoreKind
  /-- A segment is running (compute and crown cores), or the core has been started (root-controller cores). -/
  on : Bool
  task : Nat
  ctx : Nat
  deferred : List Deferred
  pairs : List OpenPair
  undo : List (Nat × Word)
  qrole : Vector QRole 4
  vq : List QEntry
  mq : List QEntry
  gq : List GuardIssue
  comb : List CombLine
  flight : List Flight
  /-- Credits of the core in use (R139). -/
  credits : Nat
  /-- Unacknowledged remote requests of the segment, oldest first, and those of aborted segments (R23, R140). -/
  out : List RemoteReq
  stale : List RemoteReq
  /-- Remote requests of the segment that were refused, in issue order (R366). -/
  nacks : List RemoteReq
  /-- Some instruction of the segment has retired (R186). -/
  retired : Bool
  gang : Option (Vector Member 3)
  /-- GANG.ON waits for the other cores of the quad (R186). -/
  gangWait : Bool
  /-- Completion events the segment armed, by job (R209). -/
  arms : List Nat
  visit : Option (List (Foot × List Byte))
  start : Nat
  budget : Nat
  /-- The offer record of a try whose answer the scalar stream waits for (R155). -/
  trying : Option Nat
  answer : Option TryAns
  /-- The wait at the PC runs its completion phase (R153). -/
  resume : Bool
  /-- The segment ends: its wait with all that was captured when it executed (R19, R23, R157). No instruction is
  fetched any more. -/
  ending : Option Wait
  /-- Step 3 of the segment's end has begun: nothing aborts it any more (R23). -/
  committing : Bool
  /-- The step 3 effect at the head of the list was refused FULL: backoff, and the time of the next attempt (R242). -/
  retryAt : Option (Nat × Nat)
  /-- Accesses of this task to failed parties that were declared lost: part number, or 0xFFFF the host, and the bit of
  R144 for the access (R146). -/
  lost : List (Nat × Nat)
  /-- IDLE stalls the core (R225). -/
  idle : Bool
  /-- Size of the page that an XLINV.va which waits has invalidated, else 0 (R222). -/
  xlSize : Nat
  /-- Fetch units of the record that the segment has not used yet: four of G, eight of V, each tile, each accumulator
  (R229). -/
  unread : BitVec 28 := 0
  sup : Sup
  deriving DecidableEq, Repr

/-! ## Ranks, tasks and cores -/

/-- A rank: its buffers, windows, scratchpad map, placement and job counters (R8, R25, R28, R208, R317, R355). -/
structure RankSt where
  key : RankKey
  ctx : Nat
  core : Nat
  w : Memory
  a : Memory
  c : Memory
  map : BitVec 128
  wins : Vector Word 8
  gen : Nat
  issued : Vector Nat 3
  /-- 4 KiB blocks written since the image was read in: what a change of residency writes back (R319). -/
  unsaved : BitVec 128 := 0
  /-- Where its save image lies in device memory, and which of its core's 256 rank states is its own (R333). While it is
  resident nowhere, its buffers, windows and map are those in memory there, and the fields above are blank. -/
  place : Option Nat := none
  slot : Nat := 0
  deriving DecidableEq, Repr
/-- Where a task stands (R13, R153, R162, R329). -/
inductive TaskSt where
  | ready (seq : Nat)
  /-- In a spawn deque; a smaller number was pushed earlier. -/
  | deque (n : Nat)
  | running
  /-- Waiting on the offer record `ro`, with an outcome once it is known. -/
  | waiting (ro : Nat)
  /-- Its offer was withdrawn by pre-emption; it offers again on resume (R251). -/
  | parked
  /-- Stopped until firmware answers the report that holds it (R329). -/
  | held
  deriving DecidableEq, Repr
/-- A handler's activation: its event, instance, message with its stamp, the sender's rank or none for an engine, and the
binding's rank, entry and priority (R166, R168, R335). -/
structure Act where
  e : EvKey
  inst : Nat
  msg : List Byte
  stamp : Stamp
  sender : Option Nat
  rank : RankKey
  entry : Word
  prio : Nat
  /-- Step in which the binding accepted it (R335). -/
  came : Nat := 0
  deriving DecidableEq, Repr
/-- A task with its context record, which is the segment checkpoint (R10, R20, R333). -/
structure Task where
  id : Nat
  rank : RankKey
  ctx : Nat
  core : Nat
  slot : Nat
  tcb : Tcb
  saved : Regs
  st : TaskSt
  /-- The record's PC is at a wait whose completion phase runs next (R153). -/
  resume : Bool
  outcome : Option WaitOut
  wait : Option WaitSpec
  /-- A report holds the task (R162, R329). -/
  hold : Bool
  /-- FPFLAGS that a drain-add at this receiver sets in its completion phase (R198). -/
  drainFlags : BitVec 6
  act : Option Act
  visitor : Bool
  /-- Liveness mask of the record: the registers of its files that it holds (R20, R21). -/
  kept : Word
  /-- The G registers as the task's wait read them, for an offer that is made again (log 21). -/
  offered : Vector Word 32
  /-- Where its record lies when it is beyond the 64 of its core's record area (R20, R333). -/
  place : Option Nat := none
  deriving DecidableEq, Repr
/-- A core that is not the focused one: the segment it runs, its resident rank and its scheduling state (R13, R319). -/
structure Exec where
  core : Nat
  r : Regs
  run : Run
  rank : RankSt
  cycle : Nat
  deriving DecidableEq, Repr
/-- Scheduling state of a core: next ready sequence number and spawn number, and the contexts it holds pre-empted
(R13, R331). -/
structure Sched where
  core : Nat
  seq : Nat
  dq : Nat
  preempted : List Nat
  failed : Bool
  /-- Context for which a pre-emption request waits for the segment end (R23 step 5). -/
  asked : List Nat
  deriving DecidableEq, Repr

/-! ## Events -/

/-- Event kinds (R236). -/
inductive EvKind where | group | counted | binding | collstart
  deriving DecidableEq, Repr
/-- Combine operations (R239). -/
inductive Combine where
  | none | pick | sum | min | max | bor | band | gather | exchange | broadcast | user | drainAdd | drainMov
  deriving DecidableEq, Repr
/-- Element types of an event payload (R236). -/
inductive EvElem where | raw | i8 | i32 | i64 | f32 | bf16 | f16
  deriving DecidableEq, Repr
/-- Payload classes (R236). -/
inductive PayClass where | none | inline | tile
  deriving DecidableEq, Repr
/-- An event descriptor (R236), KNOT split into knot and scope. -/
structure Desc where
  kind : EvKind
  combine : Combine
  cls : PayClass
  elem : EvElem
  bytes : Nat
  group : Nat
  arg : Nat
  deadline : Nat
  knot : Nat
  scope : Scope
  deriving DecidableEq, Repr
/-- A pending offer at its knot (R242): its record and alternative, the offering rank, its contribution, and the stamp.
`single` says the record has one alternative. -/
structure Offer where
  ro : Nat
  alt : Nat
  rank : Option Nat
  bytes : List Byte
  stamp : Stamp
  single : Bool
  /-- Bits of a COLL block that all members must agree on, and its CSEQ, are read from here (R215). -/
  block : List Byte
  job : Nat
  /-- Step in which it reached its knot: records of one knot are saved in arrival order (R335). -/
  came : Nat := 0
  deriving DecidableEq, Repr
/-- A resolution round (R244): its priority, the records that granted and those still to answer. -/
structure Round where
  pr : Stamp
  granted : List Nat
  waiting : List Nat
  released : Bool
  deriving DecidableEq, Repr
/-- A core of a stage: when it moved there, if it did, and the FOOT region as it holds it (R322). -/
structure StageCore where
  core : Nat
  since : Option Nat
  bytes : List Byte
  /-- The binding whose stage it joins once its activation here has ended (R322). -/
  joins : Option EvKey := none
  deriving DecidableEq, Repr
/-- A stage's limits and cores, and high-occupancy evaluations in a row (R322). -/
structure Stage where
  min : Nat
  max : Nat
  cores : List StageCore
  high : Nat
  foot : Option Foot
  deriving DecidableEq, Repr
/-- A binding (R12, R166, R167): holder, entry, depth, priority, queued and running activations. -/
structure Binding where
  rank : RankKey
  entry : Word
  depth : Nat
  prio : Nat
  queue : List Act
  running : List Act
  stage : Option Stage
  engine : Bool
  /-- UNBIND or LAUNCH_END removed the standing offer; accepted activations still run. -/
  standing : Bool
  held : Bool
  deriving DecidableEq, Repr
/-- A collective in progress on a group's engine slot (R256, R257): the members' jobs and the next step. -/
structure CollRun where
  jobs : List Nat
  start : Nat
  prog : Nat
  aborting : Bool
  deriving DecidableEq, Repr
/-- What a knot does to an event's pending offers once its round is over (R224, R248, R253). -/
inductive Ending where
  | cancel (st : Status)
  | purge
  deriving DecidableEq, Repr
/-- An event's record at its knot (R241 to R248). `inst` is the next instance; for COLLSTART `cseq` is the group's
collective sequence number. `engine` lists jobs whose engine offer belongs to the current arming. -/
structure EvState where
  key : EvKey
  launch : Option Nat
  desc : Desc
  inst : Nat
  armed : Bool
  need : Nat
  offers : List Offer
  clock : Option Nat
  round : Option Round
  binding : Option Binding
  cseq : Nat
  coll : Option CollRun
  engine : List Nat
  /-- Contributions of an instance whose USER routine runs (R249). -/
  user : List Offer
  ending : Option Ending
  /-- Parts on which a member, the binding or an engine party lies, beside this one (R238, R250). -/
  peers : List Nat
  /-- The event is to be homed again once no offer of it is CLAIMED (R238). -/
  moving : Bool
  /-- The launch that made the standing arming (R253). -/
  armer : Option Nat
  /-- Step in which the arming reached the knot (R335). -/
  came : Nat := 0
  deriving DecidableEq, Repr
/-- Who made an offer: a waiting task, a try of a running segment, a deferred effect of a task, an engine job, a
launch's ARMEV (an arming of an arity), WAITEV or SIGEV, or a text request's tokeniser (R241). `arm` is a task's arming
of an arity; it and ARMEV take a record until the knot has armed the event. -/
inductive Owner where
  | wait (task : Nat)
  | try_ (task core : Nat)
  | deferred (task core : Nat) (pc seq : Word)
  | arm (task core : Nat) (pc seq : Word) (n : Nat)
  | engine (job : Nat)
  | armev (launch n : Nat)
  | waitev (launch slot : Nat)
  | sigev (launch slot : Nat)
  | text (id : Nat)
  | coll (task core : Nat) (pc seq : Word) (job : Nat)
  deriving DecidableEq, Repr
/-- States of a choice record (R241). `withdrawn` is an OPEN record whose WITHDRAWs are on their way, with the number not
yet answered: a COMMIT sent before one arrived still decides (R246, R251). `parked` is a COLLSTART offer that was
withdrawn and is offered again (R259). -/
inductive RecSt where
  | open_
  | claimed (e : EvKey) (pr : Stamp)
  | done (alt : Nat)
  | withdrawn (left : Nat)
  | parked
  deriving DecidableEq, Repr
/-- Whether a record is CLAIMED. -/
def RecSt.isClaimed : RecSt → Bool
  | .claimed _ _ => true | _ => false
/-- A choice record (R241). `held` are claims it holds behind a revoked younger one (R244); `st` is the status an
engine's offer carries (R209); `cancel` a cancellation that waits for a claim to finish (R248). -/
structure Rec where
  ro : Nat
  owner : Owner
  rank : Option RankKey
  alts : List Alt
  stamp : Stamp
  aged : Bool
  state : RecSt
  held : List (EvKey × Stamp)
  st : Status
  cancel : Option CommitMsg
  /-- For a drain: which accumulator (R198). -/
  acc : Option CReg
  drain : Bool
  /-- Alternatives that a knot refused FULL: each with its backoff, and the time before which it is not sent again (R242). -/
  backoff : List (Nat × Nat × Nat)
  deriving DecidableEq, Repr

/-! ## Contexts and launches -/

/-- The selected-scope registers of a context number (R340). -/
structure CtxRegs where
  ptbase : Word
  fmtbase : Word
  budget : Nat
  partition : Word
  vqbase : Word
  deriving DecidableEq, Repr
/-- A launch queue (R299, R301). -/
structure Queue where
  cfg : Bool
  base : Nat
  lg : Nat
  prio : Nat
  head : BitVec 16
  tail : BitVec 16
  busy : Bool
  err : Bool
  deriving DecidableEq, Repr
/-- A group row in use: row number, owning launch, members ascending (R9, R310). -/
structure Group where
  row : Nat
  launch : Nat
  ranks : List Nat
  deriving DecidableEq, Repr
/-- An attached text path: handle, tokeniser binding, detokeniser binding (R290). -/
structure TextPath where
  vh : Nat
  tok : Nat
  detok : Nat
  deriving DecidableEq, Repr
/-- An allocated context (R7, R301, R302, R345, R348). -/
structure Ctx where
  id : Nat
  desc : List Byte
  mctbase : Word
  routbase : Word
  uejob : Nat
  dirtybase : Word
  clusters : List Nat
  groups : List Group
  key : Option (List Byte)
  mrv : BitVec 512
  mrl : BitVec 512
  nvoc : Nat
  nlnc : Nat
  vocab : Vector (List Byte) 4
  text : Option TextPath
  queues : Vector Queue 4
  quiesced : Bool
  deriving DecidableEq, Repr
/-- A binding-table entry (R311). -/
structure BindRec where
  ev : Nat
  rank : Nat
  entry : Word
  depth : Nat
  min : Nat
  max : Nat
  stage : Bool
  engine : Bool
  foot : Option Foot
  deriving DecidableEq, Repr
/-- The parts of a launch record and its tables that the part keeps (R306, R310, R311). -/
structure LaunchRec where
  nrank : Nat
  runOnCancel : Bool
  irq : Bool
  tcb : Tcb
  gbase : Nat
  groups : List (List Nat)
  descs : List Desc
  ebase : Nat
  nevent : Nat
  crec : Nat
  /-- ARMEV entries: link and arity. -/
  armev : List (Nat × Nat)
  waitev : List Nat
  /-- Entry index and link of each valid SIGEV. -/
  sigev : List (Nat × Nat)
  binds : List BindRec
  hints : List (List Byte)
  images : List (List Byte)
  fmts : List (Nat × List Byte)
  deriving DecidableEq, Repr
/-- Progress of a launch (R304, R312, R313, R316). -/
inductive LaunchSt where | waiting | started | cancelling | ended
  deriving DecidableEq, Repr
/-- A launch (R8, R304 to R316). -/
structure Launch where
  id : Nat
  ctx : Nat
  q : Nat
  index : Nat
  decl : LaunchRec
  st : LaunchSt
  /-- WAITEV offers still to occur. -/
  waits : Nat
  tstart : Nat
  segs : Nat
  traps : Nat
  lost : BitVec 4
  deriving DecidableEq, Repr

/-! ## Text path -/

/-- A request at its tokeniser (R292, R293): `next` is the SEQ that it consumes next, `last` the SEQ of its frame with
LAST, `bytes` the open piece, `tokens` what no chunk has carried yet, `offered` the record of the chunk on offer. -/
structure TextReq where
  id : Nat
  ctx : Nat
  req : Nat
  vh : Nat
  maxtok : Nat
  raddr : List Byte
  job : Nat
  process : Nat
  /-- The tokeniser and the detokeniser assigned to the request (R290). -/
  tok : Nat
  detok : Nat
  /-- The tokeniser binding's event name (R290). -/
  bind : Nat
  /-- Held frames: SEQ, LAST and payload. -/
  frames : List (Nat × Bool × List Byte)
  next : Nat
  last : Option Nat
  bytes : List Byte
  tokens : List Nat
  chunk : Nat
  arrived : Nat
  offered : Option Nat
  open_ : Bool
  /-- Bytes of the prompt that the tokeniser has consumed (R335). -/
  eaten : Nat := 0
  deriving DecidableEq, Repr
/-- A request's reply state at its detokeniser (R293, R295). -/
structure Reply where
  id : Nat
  ctx : Nat
  req : Nat
  vh : Nat
  maxtok : Nat
  raddr : List Byte
  job : Nat
  process : Nat
  detok : Nat
  emitted : Nat
  seq : Nat
  next : Nat
  held : List (Nat × List Byte)
  dropped : Bool
  deriving DecidableEq, Repr

/-! ## The rest of the module -/

/-- Which cache holds a translation: a core's, or its cluster's (R339). -/
inductive TlbSite where | core (n : Nat) | cluster (n : Nat)
  deriving DecidableEq, Repr
/-- A cached translation (R336 to R339): its cache, context, 64 KiB page number, and the leaf entry. -/
structure TlbEntry where
  site : TlbSite := .core 0
  ctx : Nat
  page : Nat
  leaf : Word
  deriving DecidableEq, Repr
/-- A walk that a prefetch has begun (R147, R339): die of the walker, context, 64 KiB page number, and the cores whose caches
it fills. -/
structure Walk where
  die : Nat
  ctx : Nat
  page : Nat
  cores : List Nat
  deriving DecidableEq, Repr
/-- A report (R326, R327); `task` is the task it holds, if any. -/
structure Report where
  kind : Nat
  code : BitVec 16
  pc : Word
  addr : Word
  msg : Word
  seq : Word
  src : Word
  task : Option Nat
  /-- A teardown has discarded its task (R329). -/
  gone : Bool := false
  deriving DecidableEq, Repr
/-- A scale-up link (R350 to R352). `bad` are lanes that failed their margin in the current mode; `step` is the time a
mode step began; `down` the time the link went down. -/
structure Link where
  peer : BitVec 16
  retry : BitVec 16
  margin : BitVec 8
  lanes : BitVec 8
  mode : BitVec 2
  step : Option Nat
  down : Option Nat
  bad : BitVec 8
  deriving DecidableEq, Repr
/-- A wear monitor (R362, R363). -/
structure Monitor where
  slope : BitVec 16
  init : BitVec 16
  now : BitVec 16
  deriving DecidableEq, Repr
/-- The health registers (R363) and the clock steps in force (R364). -/
structure Health where
  die : BitVec 3
  mon : BitVec 3
  mons : Vector Monitor 25
  heol : Word
  eccDram : Word32
  eccSram : Word32
  hpoison : Word
  hpaddr : Word
  trip : Bool
  step : BitVec 8
  inlet : BitVec 8
  tj : BitVec 8
  pwr : BitVec 16
  cap : BitVec 16
  hevt : BitVec 4
  window : Memory
  capSteps : Nat
  deriving DecidableEq, Repr
/-- Traffic classes of the fabric (R323). -/
inductive TrafficClass where | tc0 | tc1 | tc2 | tc3
  deriving DecidableEq, Repr
/-- A packet held at its source until acknowledged (R323, R324): its header (source core, sequence number, class), its
backoff in cycles and its ageing counter. -/
structure Packet where
  id : Nat
  /-- The message that it carries, where that is no request or access with a number of its own. -/
  msg : Option Owed := none
  source : Nat
  seq : Nat
  cls : TrafficClass
  refusals : Nat
  backoff : Nat
  age : Nat
  promoted : Bool
  deriving DecidableEq, Repr
/-- Mailbox state (R300, R344): `words` are the bytes of CMD and the arguments, offsets 0x000 to 0x7FF. -/
structure Mailbox where
  words : Memory
  busy : Bool
  status : Nat
  tag : Nat
  result : List Byte
  deriving DecidableEq, Repr
/-- Boot state, fuses and flash (R342 to R345). -/
structure Boot where
  state : BitVec 4
  svn : Nat
  mr1 : BitVec 512
  flash : Memory
  /-- Mailbox word 0x040 as a function-level reset finds it (R344). -/
  word40 : Word
  /-- A recovery image that the ROM writes to the flash, and how many of its bytes are there (R344). -/
  writing : Option (List Byte × Nat)
  deriving DecidableEq, Repr
/-- What leaves the part: text frames (R295), attestation answers (R347, R348), host read data (R297), negative
acknowledgements and read answers on the scale-out ports (R349). -/
inductive Out where
  | frame (job process : Nat) (bs : List Byte)
  | mctp (bs : List Byte)
  | hostData (bs : List Byte)
  | ueNack (job : Nat)
  | ueData (job : Nat) (bs : List Byte)
  deriving DecidableEq, Repr
/-- A forwarding entry left by a graft (R321): rank, old core, and the generation it was made in. -/
structure Forward where
  rank : RankKey
  core : Nat
  gen : Nat
  deriving DecidableEq, Repr
/-- A saved context with what its save area has no field for (R333 to R335, R357): its tasks, jobs and launches, kept under
the area's physical address. -/
structure Saved where
  pa : Nat
  ctx : Ctx
  regs : CtxRegs
  ranks : List RankSt
  tasks : List Task
  jobs : List Job
  launches : List Launch
  events : List EvState
  recs : List Rec
  texts : List TextReq
  replies : List Reply
  /-- TOGGLE and BUSY of the pairs of taps under way, by job (R58, R335). -/
  taps : List (Nat × Byte × Bool) := []
  /-- TIME when it was saved: deadline clocks resume from what had elapsed. -/
  time : Nat
  deriving DecidableEq, Repr
/-- Everything of the module outside the focused core. -/
structure Module where
  others : List Exec
  scheds : List Sched
  tasks : List Task
  ranks : List RankSt
  ctxRegs : Vector CtxRegs 64
  ctxs : List Ctx
  launches : List Launch
  events : List EvState
  recs : List Rec
  jobs : List Job
  texts : List TextReq
  replies : List Reply
  tlb : List TlbEntry
  /-- Descriptors cached with translations: core, context, number, bytes (R338). -/
  fmts : List (Nat × Nat × Nat × List Byte)
  walks : List Walk
  reports : List Report
  /-- Reports that wait at their source for room in the full queue, oldest first (R326). -/
  waiting : List Report
  last : Option Report
  /-- Reports that firmware left to the driver, whose answer is awaited (R329). -/
  hosted : List Report
  poison : List Nat
  bufPoison : List (RankKey × Buf × Nat)
  links : Vector Link 12
  hostDown : Option Nat
  /-- Failed parties: peer part numbers, and 0xFFFF for the host link (R271). -/
  failed : List Nat
  /-- Physical 64 KiB pages that a failed peer backed and that some context maps since; loads from them trap POISON until
  they are unmapped or remapped (R271). -/
  lostPages : List Nat
  health : Health
  fabarb : Word
  packets : List Packet
  /-- Source and sequence number of the packets that receivers have taken (R323). -/
  taken : List (Nat × Nat)
  /-- The next sequence number of each source that has sent, modulo 2^32 (R323). -/
  seqs : List (Nat × Nat)
  /-- The core that each cluster's copy unit served last (R212). -/
  turns : List (Nat × Nat)
  /-- First touches: context, 64 KiB page, rank number (R27, R317). -/
  touched : List (Nat × Nat × Nat)
  preempt : Word
  generation : Nat
  /-- When each die's scheduler last evaluated its stages: die and TIME (R322). -/
  evals : List (Nat × Nat)
  forwards : List Forward
  mailbox : Mailbox
  msix : BitVec 66
  /-- Bytes of the MSI-X table (R298). -/
  msixTable : Memory
  boot : Boot
  /-- Queues of contexts that are not allocated whose ERR is set: context and queue (R299). -/
  strays : List (Nat × Nat)
  saved : List Saved
  /-- Last stamp time used by each unit (R241). -/
  stamps : List (Nat × Nat)
  nextId : Nat
  outs : List Out
  deriving DecidableEq, Repr

/-- The state of the machine: the focused core (its registers, segment and resident rank), physical memory, the
root controller's private SRAM, the steps owed, time, and the rest of the module. `tick` counts steps and feeds the
free values of Config; it is the model's own (DESIGN CHOICE, log 4). -/
structure State where
  r : Regs
  run : Run
  rank : RankSt
  core : Nat
  mem : Memory
  sram : Memory
  /-- Steps owed by the units or delivered by the outside world, oldest first (DESIGN CHOICE, log 5). -/
  pending : List Owed
  /-- The owed step that is being performed. -/
  doing : Option Owed
  time : Nat
  cycle : Nat
  tick : Nat
  mod : Module
  deriving DecidableEq, Repr

/-- A trap with the TRAPADDR it reports (R366). -/
structure TrapAt where
  trap : Trap
  addr : Word
  deriving DecidableEq, Repr

/-- Why the machine stops with a fault. -/
inductive Fault where
  /-- Raised by the meaning of a module step that names a link, die, monitor, core or knot number the part does not
  have (R236, R350, R362): the outside world cannot deliver such a step. Safe: nothing is claimed beyond it (DESIGN CHOICE, log 6). -/
  | noSuchUnit
  deriving DecidableEq, Repr
/-- Why an instruction has no meaning. -/
inductive Refusal where
  /-- Raised by the arm of an instruction that the model does not yet give a meaning. Safe. -/
  | notModelled (mnemonic : String)
  deriving DecidableEq, Repr

/-! ## Reset -/

/-- 1.0 in FP32 (R365). -/
def one32 : Word32 := 0x3F800000
/-- A tile as a task starts with it (R365). -/
def Tile.reset : Tile := { bytes := [], side := Vector.replicate 16 one32 }
/-- The registers of a task at its start, but for PC, LIVE and the arguments (R33, R121, R163, R365). -/
def Regs.reset : Regs where
  pc := 0
  g := Vector.replicate 32 0
  p := Vector.replicate 16 false
  v := Vector.replicate 32 0
  m := Vector.replicate 8 0
  t := Vector.replicate 8 Tile.reset
  c := Vector.replicate 8 []
  q := Vector.replicate 4 []
  k := Vector.replicate 8 { gen := 0, bound := false }
  lc := Vector.replicate 2 { count := 0, reload := 0, s := 0, e := 0 }
  mx := Vector.replicate 4 0
  mxflag := 0
  tcfg := Vector.replicate 8 0
  fe := true
  fpflags := 0
  coinseed := 0
  live := 0
  evstat := 0
  fstat := 0
  segseq := 0
/-- Supervisor CSRs at reset (R220, R327, R340; those without a stated value are zero, DESIGN CHOICE, log 1). -/
def Sup.reset : Sup where
  pie := false
  ie := false
  ppriv := true
  priv := true
  trapcode := 0
  trappc := 0
  trapaddr := 0
  trapmsg := 0
  trapseq := 0
  trapsrc := 0
  ctxrec := 0
  tvec := 0
  ipend := 0
  ctxsel := 0
/-- No segment: what a core of a kind holds when nothing runs on it. -/
def Run.fresh (kind : CoreKind) : Run where
  kind := kind
  on := false
  task := 0
  ctx := 0
  deferred := []
  pairs := []
  undo := []
  qrole := Vector.replicate 4 { writer := none, reader := none }
  vq := []
  mq := []
  gq := []
  comb := []
  flight := []
  credits := 0
  out := []
  stale := []
  nacks := []
  retired := false
  gang := none
  gangWait := false
  arms := []
  visit := none
  start := 0
  budget := 0
  trying := none
  answer := none
  resume := false
  ending := none
  committing := false
  retryAt := none
  lost := []
  idle := false
  xlSize := 0
  sup := Sup.reset
/-- A rank's state before its launch starts (R28, R208, R355). -/
def RankSt.empty (key : RankKey) (ctx core : Nat) : RankSt where
  key := key
  ctx := ctx
  core := core
  w := []
  a := []
  c := []
  map := 0
  wins := Vector.replicate 8 0
  gen := 0
  issued := Vector.replicate 3 0
/-- Number that stands for a root-controller core in this model: 0x8000 plus its index (DESIGN CHOICE, log 2). -/
def rootCore : Nat := 0x8000
/-- No rank: what a core that runs no task of a rank holds. -/
def noRank : RankSt := RankSt.empty { launch := 0, rank := 0 } 0 0
/-- A link at reset (R352). -/
def Link.reset : Link where
  peer := 0xFFFF
  retry := 0
  margin := 0
  lanes := 0
  mode := 3
  step := none
  down := none
  bad := 0
/-- The health registers at reset (R363). -/
def Health.reset : Health where
  die := 0
  mon := 0
  mons := Vector.replicate 25 { slope := 0, init := 0, now := 0 }
  heol := 0
  eccDram := 0
  eccSram := 0
  hpoison := 0
  hpaddr := 0
  trip := false
  step := 0
  inlet := 0
  tj := 0
  pwr := 0
  cap := 3000
  hevt := 0
  window := []
  capSteps := 0
/-- The module outside its focused core at reset: no context, empty queues, links down, the ROM about to run. -/
def Module.reset : Module where
  others := []
  scheds := []
  tasks := []
  ranks := []
  ctxRegs := Vector.replicate 64 { ptbase := 0, fmtbase := 0, budget := 100, partition := 0, vqbase := 0 }
  ctxs := []
  launches := []
  events := []
  recs := []
  jobs := []
  texts := []
  replies := []
  tlb := []
  fmts := []
  walks := []
  reports := []
  waiting := []
  last := none
  hosted := []
  poison := []
  bufPoison := []
  links := Vector.replicate 12 Link.reset
  hostDown := none
  failed := []
  lostPages := []
  health := Health.reset
  fabarb := 0x20001020408
  packets := []
  taken := []
  seqs := []
  turns := []
  touched := []
  preempt := 0x8000000000000000
  generation := 0
  evals := []
  forwards := []
  mailbox := { words := [], busy := false, status := 0, tag := 0, result := [] }
  msix := 0
  msixTable := []
  boot := { state := 0, svn := 0, mr1 := 0, flash := [], word40 := 0, writing := none }
  strays := []
  saved := []
  stamps := []
  nextId := 1
  outs := []
/-- The machine right after reset (R33, R220, R340, R343): the focused core is root-controller core 0 in supervisor
mode, not yet started, the PC at 0 of its private SRAM (DESIGN CHOICE, log 2), the heartwood ROM's boot step owed, and memory with
nothing listed (DESIGN CHOICE, log 3). -/
def State.reset : State where
  r := Regs.reset
  run := Run.fresh .root
  rank := noRank
  core := rootCore
  mem := []
  sram := []
  pending := [.heartwoodBoot .verify]
  doing := none
  time := 0
  cycle := 0
  tick := 0
  mod := Module.reset

end Sys2Proof.Machine
end

