-- ==== Sys2Proof/Machine/Bits.lean ====
section
/-! DEFINITION. Bit fields, extensions, byte orders and the widths of accesses (R1, R5, R129). -/

namespace Sys2Proof.Machine

/-- sext(x, n) of R5. -/
def sextN (n : Nat) (x : Word) : Word :=
  if n ≥ 64 then x else (x <<< (64 - n)).sshiftRight (64 - n)
/-- zext(x, n) of R5. -/
def zextN (n : Nat) (x : Word) : Word := BitVec.ofNat 64 (x.toNat % 2 ^ n)
/-- Bits hi:lo of a number (R5). -/
def bits (x hi lo : Nat) : Nat := x / 2 ^ lo % 2 ^ (hi + 1 - lo)
/-- Bit i of a number. -/
def bitOf (x i : Nat) : Bool := x / 2 ^ i % 2 == 1
/-- A Bool as a number. -/
def b2n (b : Bool) : Nat := if b then 1 else 0
/-- The two's-complement value of the low n bits of x. -/
def toSigned (n x : Nat) : Int :=
  let y := x % 2 ^ n
  if 2 * y < 2 ^ n then (y : Int) else (y : Int) - (2 ^ n : Nat)
/-- The low n bits of an integer. -/
def ofSigned (n : Nat) (x : Int) : Nat := (x % (2 ^ n : Nat)).toNat
/-- The code of a trap (R38). -/
def Trap.code : Trap → BitVec 16
  | .illegal => 0x01 | .priv => 0x02 | .align => 0x03 | .pageNp => 0x10 | .pagePerm => 0x11 | .kind => 0x12
  | .fmt => 0x13 | .winNack => 0x20 | .mcPart => 0x21 | .evtNotMember => 0x30 | .evtDup => 0x31 | .evtUnarmed => 0x32
  | .handlerBlock => 0x33 | .budget => 0x40 | .streamDeadlock => 0x41 | .sklimit => 0x50 | .poison => 0x60
  | .break_ => 0x70 | .user => 0x71 | .engine => 0x80 | .launchGroups => 0x90 | .storeLost => 0x91
/-- Place of a trap in the order of R39: the smaller is reported first. -/
def Trap.order : Trap → Nat
  | .illegal => 0 | .priv => 1 | .align => 2 | .pageNp => 3 | .pagePerm => 4 | .kind => 5 | .fmt => 6 | _ => 7
/-- TRAPADDR of a typed-buffer offset (R366). -/
def typedAddr (b : Buf) (off : Word) : Word :=
  (1#2 ++ BitVec.ofNat 2 (Buf.code b)) ++ off.extractLsb' 0 60
/-- TRAPADDR of a remote endpoint (R211, R366). -/
def remoteAddr (rank : Nat) (b : Buf) (off : Nat) : Word :=
  BitVec.ofNat 64 (2 * 2 ^ 62 + (rank % 2 ^ 20) * 2 ^ 20 + Buf.code b * 2 ^ 18 + off % 2 ^ 18)
/-- The values of an association list of an optional key, first match. -/
def orElse' {α : Type} (x : Option α) (y : Option α) : Option α :=
  match x with
  | some a => some a
  | none => y
/-- Apply f to the elements that satisfy p. -/
def updWhere {α : Type} (p : α → Bool) (f : α → α) (l : List α) : List α := l.map (fun x => if p x then f x else x)
/-- Insertion into a list sorted by `le`, after equal elements. -/
def insertBy {α : Type} (le : α → α → Bool) (x : α) : List α → List α
  | [] => [x]
  | y :: ys => if le y x then y :: insertBy le x ys else x :: y :: ys
/-- Sorting by insertion; stable. -/
def sortBy {α : Type} (le : α → α → Bool) (l : List α) : List α := l.foldl (fun acc x => insertBy le x acc) []
/-- Zero bytes. -/
def zeros (n : Nat) : List Byte := List.replicate n 0

end Sys2Proof.Machine

namespace Sys2Proof

open Sys2Proof.Machine

/-- Bytes of an access of a load width (R129). -/
def LdW.size : LdW → Nat
  | .b => 1 | .bu => 1 | .h => 2 | .hu => 2 | .w => 4 | .wu => 4 | .d => 8
/-- Bytes of an access of a store width (R129). -/
def StW.size : StW → Nat
  | .b => 1 | .h => 2 | .w => 4 | .d => 8
/-- Bytes of an access of a multicast width (R142). -/
def McW.size : McW → Nat
  | .b => 1 | .h => 2 | .w => 4 | .d => 8 | .q => 16
/-- A loaded value extended to 64 bits as its width code says (R132). -/
def LdW.extend (wd : LdW) (bs : List Byte) : Word :=
  let x : Word := BitVec.ofNat 64 (leNat bs)
  match wd with
  | .b => sextN 8 x | .h => sextN 16 x | .w => sextN 32 x
  | .bu => zextN 8 x | .hu => zextN 16 x | .wu => zextN 32 x
  | .d => x
/-- Sizes of the typed buffers (R25). -/
def Buf.size : Buf → Nat
  | .w => 262144 | .a => 131072 | .c => 131072
/-- The condition of a compare on two 64-bit values (R112). -/
def Cond.holds (c : Cond) (a b : Word) : Bool :=
  match c with
  | .eq => a == b
  | .ne => a != b
  | .lt => a.slt b
  | .ge => !a.slt b
  | .ltu => a.ult b
  | .geu => !a.ult b
/-- The status code of a status (R40). -/
def Status.code : Status → Nat
  | .occurred => 0 | .notready => 1 | .timeout => 2 | .aborted => 3 | .cancelled => 4 | .peerFailed => 5
  | .withdrawn => 6 | .full => 7 | .empty => 8
/-- p1 after a status is written (R40). -/
def Status.ok : Status → Bool
  | .occurred => true | .empty => true | _ => false

end Sys2Proof
end

