-- ==== Sys2Proof/Machine/Flags.lean ====
section
/-! DEFINITION. The floating-point flags and exact arithmetic of the part (R41 to R47): formats, exact values, rounding
with its flags, and conversions. -/

namespace Sys2Proof.Machine

/-! ## Flags (R36, R45) -/

abbrev Flags := BitVec 6
def flagNX : Flags := 1
def flagUF : Flags := 2
def flagOF : Flags := 4
def flagDZ : Flags := 8
def flagNV : Flags := 16
def flagSAT : Flags := 32

/-! ## Formats (R41, R42) -/

/-- A floating format: exponent and mantissa widths, and bias. `e4m3` marks the format without infinities. -/
structure FFmt where
  eb : Nat
  mb : Nat
  bias : Nat
  e4m3 : Bool
  deriving DecidableEq, Repr
def fmtE4M3 : FFmt := { eb := 4, mb := 3, bias := 7, e4m3 := true }
def fmtE5M2 : FFmt := { eb := 5, mb := 2, bias := 15, e4m3 := false }
def fmtBF16 : FFmt := { eb := 8, mb := 7, bias := 127, e4m3 := false }
def fmtF16 : FFmt := { eb := 5, mb := 10, bias := 15, e4m3 := false }
def fmtF32 : FFmt := { eb := 8, mb := 23, bias := 127, e4m3 := false }
/-- Bits of a format. -/
def FFmt.width (f : FFmt) : Nat := 1 + f.eb + f.mb
/-- The canonical NaN (R42). -/
def FFmt.nan (f : FFmt) : Nat :=
  if f.e4m3 then 0x7F else (2 ^ f.eb - 1) * 2 ^ f.mb + 2 ^ (f.mb - 1)
/-- Infinity of a sign. -/
def FFmt.inf (f : FFmt) (neg : Bool) : Nat := b2n neg * 2 ^ (f.eb + f.mb) + (2 ^ f.eb - 1) * 2 ^ f.mb
/-- Largest finite magnitude of a sign. -/
def FFmt.big (f : FFmt) (neg : Bool) : Nat :=
  b2n neg * 2 ^ (f.eb + f.mb) + (if f.e4m3 then 0x7E else (2 ^ f.eb - 1) * 2 ^ f.mb - 1)
/-- Zero of a sign. -/
def FFmt.zero (f : FFmt) (neg : Bool) : Nat := b2n neg * 2 ^ (f.eb + f.mb)

/-- An exact value: NaN, an infinity, or ± m × 2^e, where m = 0 is a zero of that sign. -/
inductive FVal where
  | nan
  | inf (neg : Bool)
  | num (neg : Bool) (m : Nat) (e : Int)
  deriving DecidableEq, Repr
/-- The value an encoding stands for (R41, R42). -/
def FFmt.decode (f : FFmt) (x : Nat) : FVal :=
  let neg := bitOf x (f.eb + f.mb)
  let ex := x / 2 ^ f.mb % 2 ^ f.eb
  let ma := x % 2 ^ f.mb
  if f.e4m3 && ex = 15 && ma = 7 then .nan
  else if !f.e4m3 && ex = 2 ^ f.eb - 1 then (if ma = 0 then .inf neg else .nan)
  else if ex = 0 then .num neg ma (1 - (f.bias : Int) - f.mb)
  else .num neg (2 ^ f.mb + ma) ((ex : Int) - f.bias - f.mb)
/-- Whether an FP32 encoding is a NaN. -/
def isNan32 (x : Nat) : Bool := fmtF32.decode x == .nan

/-! ## Rounding (R44, R45) -/

/-- A result with the flags it sets. -/
structure FRes where
  bits : Nat
  flags : Flags
  deriving DecidableEq, Repr
/-- What an overflow to the destination does: IEEE (R44), or saturation (R46). -/
inductive Over where | ieee | sat
  deriving DecidableEq, Repr
/-- The encoding of q × 2^u, q at most 2^(mb+1), with u the unit exponent chosen for it; none when it exceeds the
largest finite value. -/
def FFmt.encode (f : FFmt) (neg : Bool) (q : Nat) (u : Int) : Option Nat :=
  let s := b2n neg * 2 ^ (f.eb + f.mb)
  if q < 2 ^ f.mb then some (s + q)
  else
    let (q, u) := if q = 2 ^ (f.mb + 1) then (2 ^ f.mb, u + 1) else (q, u)
    let ex := u + f.mb + f.bias
    let ma := q - 2 ^ f.mb
    let top : Int := 2 ^ f.eb - 1
    if (if f.e4m3 then ex > top || (ex == top && ma == 7) else ex ≥ top) then none
    else some (s + ex.toNat * 2 ^ f.mb + ma)
/-- Rounding the magnitude m × 2^e, plus a nonzero part below 2^e when `sticky`, to a format (R44 steps 2 and 3, R46).
A sticky magnitude is given with more bits than the format holds. -/
def FFmt.round (f : FFmt) (rnd : Rnd) (ov : Over) (neg : Bool) (m : Nat) (e : Int) (sticky : Bool) : FRes :=
  if m = 0 then { bits := f.zero neg, flags := 0 } else
  let top := (Nat.log2 m : Int) + e
  let emin := 1 - (f.bias : Int)
  let u := max (top - f.mb) (emin - f.mb)
  let sh := (u - e).toNat
  let q := if u ≤ e then m * 2 ^ (e - u).toNat else m / 2 ^ sh
  let rem := if u ≤ e then 0 else m % 2 ^ sh
  let half := if u ≤ e then 1 else 2 ^ (sh - 1)
  let inexact := rem != 0 || sticky
  let up := match rnd with
    | .rne => decide (rem > half) || (rem == half && (sticky || q % 2 == 1) && inexact)
    | .rtz => false
    | .rdn => neg && inexact
    | .rup => !neg && inexact
  let q := if up then q + 1 else q
  let fl : Flags := (if inexact then flagNX else 0) ||| (if inexact && top < emin then flagUF else 0)
  match f.encode neg q u with
  | some b => { bits := b, flags := fl }
  | none =>
    match ov with
    | .sat => { bits := f.big neg, flags := flagNX ||| flagSAT }
    | .ieee =>
      let toInf := match rnd with
        | .rne => true | .rtz => false | .rdn => neg | .rup => !neg
      { bits := if toInf then f.inf neg else f.big neg, flags := flagNX ||| flagOF }
/-- Rounding an exact value to an IEEE result of a format. -/
def FFmt.ofVal (f : FFmt) (rnd : Rnd) (v : FVal) : FRes :=
  match v with
  | .nan => { bits := f.nan, flags := 0 }
  | .inf n => { bits := f.inf n, flags := 0 }
  | .num n m e => f.round rnd .ieee n m e false
/-- A result with more flags. -/
def FRes.or (r : FRes) (f : Flags) : FRes := { r with flags := r.flags ||| f }

/-! ## Exact operations (R44, R45) -/

def FVal.isZero : FVal → Bool
  | .num _ m _ => m == 0
  | _ => false
def FVal.negate : FVal → FVal
  | .nan => .nan
  | .inf n => .inf (!n)
  | .num n m e => .num (!n) m e
/-- A signed integer of a number at a lower exponent. -/
def scaledInt (neg : Bool) (m : Nat) (e lo : Int) : Int :=
  let x : Int := (m * 2 ^ (e - lo).toNat : Nat)
  if neg then -x else x
/-- The exact value of an integer times 2^e; a zero takes the sign given. -/
def ofInt (x e : Int) (zneg : Bool) : FVal := .num (if x = 0 then zneg else decide (x < 0)) x.natAbs e
/-- Exact sum, and whether it is invalid (R44 step 4, R45). -/
def FVal.add (rnd : Rnd) (x y : FVal) : FVal × Flags :=
  match x, y with
  | .nan, _ => (.nan, 0)
  | _, .nan => (.nan, 0)
  | .inf a, .inf b => if a == b then (.inf a, 0) else (.nan, flagNV)
  | .inf a, _ => (.inf a, 0)
  | _, .inf b => (.inf b, 0)
  | .num a m e, .num b k g =>
    let lo := min e g
    let z := if a == b then a else rnd == .rdn
    (ofInt (scaledInt a m e lo + scaledInt b k g lo) lo z, 0)
/-- Exact product, and whether it is invalid. -/
def FVal.mul (x y : FVal) : FVal × Flags :=
  match x, y with
  | .nan, _ => (.nan, 0)
  | _, .nan => (.nan, 0)
  | .inf a, y => if y.isZero then (.nan, flagNV) else
      match y with
      | .inf b => (.inf (xor a b), 0)
      | .num b _ _ => (.inf (xor a b), 0)
      | .nan => (.nan, 0)
  | .num a m _, .inf b => if m = 0 then (.nan, flagNV) else (.inf (xor a b), 0)
  | .num a m e, .num b k g => (.num (xor a b) (m * k) (e + g), 0)

def fAdd (f : FFmt) (rnd : Rnd) (x y : FVal) : FRes :=
  let (v, fl) := x.add rnd y
  (f.ofVal rnd v).or fl
def fMul (f : FFmt) (rnd : Rnd) (x y : FVal) : FRes :=
  let (v, fl) := x.mul y
  (f.ofVal rnd v).or fl
/-- Quotient rounded once (R175). -/
def fDiv (f : FFmt) (rnd : Rnd) (x y : FVal) : FRes :=
  match x, y with
  | .nan, _ => { bits := f.nan, flags := 0 }
  | _, .nan => { bits := f.nan, flags := 0 }
  | .inf _, .inf _ => { bits := f.nan, flags := flagNV }
  | .inf a, .num b _ _ => { bits := f.inf (xor a b), flags := 0 }
  | .num a _ _, .inf b => { bits := f.zero (xor a b), flags := 0 }
  | .num a m e, .num b k g =>
    if k = 0 then
      if m = 0 then { bits := f.nan, flags := flagNV } else { bits := f.inf (xor a b), flags := flagDZ }
    else
      let sh := 64 + Nat.log2 k
      let n := m * 2 ^ sh
      f.round rnd .ieee (xor a b) (n / k) (e - g - sh) (n % k != 0)
/-- Integer square root below 2^n by bits. -/
def isqrt : Nat → Nat → Nat → Nat
  | 0, _, r => r
  | n + 1, x, r => let t := r + 2 ^ n; if t * t ≤ x then isqrt n x t else isqrt n x r
/-- Square root rounded once (R175). -/
def fSqrt (f : FFmt) (rnd : Rnd) (x : FVal) : FRes :=
  match x with
  | .nan => { bits := f.nan, flags := 0 }
  | .inf n => if n then { bits := f.nan, flags := flagNV } else { bits := f.inf false, flags := 0 }
  | .num n m e =>
    if m = 0 then { bits := f.zero n, flags := 0 }
    else if n then { bits := f.nan, flags := flagNV }
    else
      let (m, e) := if e % 2 = 0 then (m, e) else (2 * m, e - 1)
      let x := m * 2 ^ 80
      let r := isqrt 60 x 0
      f.round rnd .ieee false r (e / 2 - 40) (r * r != x)
/-- Order of two values for FMIN and FMAX, −0 below +0; neither is NaN. -/
def FVal.lt (x y : FVal) : Bool :=
  match x, y with
  | .inf a, .inf b => a && !b
  | .inf a, _ => a
  | _, .inf b => !b
  | .num a m e, .num b k g =>
    let lo := min e g
    let i := scaledInt a m e lo
    let j := scaledInt b k g lo
    decide (i < j) || (i == j && m == 0 && a && !b)
  | _, _ => false
/-- Numeric order, −0 equal to +0; a NaN is below nothing (R177). -/
def FVal.ltNum (x y : FVal) : Bool := x != .nan && y != .nan && x.lt y && !(x.isZero && y.isZero)
def FVal.eqNum (x y : FVal) : Bool := x != .nan && y != .nan && !x.ltNum y && !y.ltNum x
/-- FMIN and FMAX on encodings of a format (R175). -/
def fMinMax (f : FFmt) (isMin : Bool) (x y : Nat) : FRes :=
  let a := f.decode x
  let b := f.decode y
  let r := if a == .nan then (if b == .nan then f.nan else y)
    else if b == .nan then x
    else if isMin then (if b.lt a then y else x) else (if a.lt b then y else x)
  { bits := r, flags := 0 }
/-- Fused multiply-add of exact values: ±(a × b) ± c (R176). -/
def fFma (f : FFmt) (rnd : Rnd) (negP negC : Bool) (a b c : FVal) : FRes :=
  let (p, fl) := a.mul b
  if fl != 0 then { bits := f.nan, flags := flagNV } else
  let p := if negP then p.negate else p
  let c := if negC then c.negate else c
  fAdd f rnd p c

/-! ## 2^x and log₂ x, correctly rounded (R175) -/

/-- Fraction bits of the fixed-point arithmetic below.
(DEDUCED, log 38). -/
def fixBits : Nat := 320
/-- Σ z^(2i+1)/(2i+1) for a fixed-point z: `n` terms, with z² and the next power. -/
def atanhSum : Nat → Nat → Nat → Nat → Nat → Nat
  | 0, _, _, _, acc => acc
  | n + 1, z2, p, k, acc => atanhSum n z2 (p * z2 / 2 ^ fixBits) (k + 2) (acc + p / k)
/-- ln of num/den in fixed point, for 1 ≤ num/den ≤ 2, as 2 atanh((num − den)/(num + den)). -/
def lnFix (num den : Nat) : Nat :=
  let z := (num - den) * 2 ^ fixBits / (num + den)
  2 * atanhSum 110 (z * z / 2 ^ fixBits) z 1 0
/-- ln 2 in fixed point. -/
def ln2Fix : Nat := lnFix 2 1
/-- Σ y^i/i! in fixed point: `n` terms, with the next term. -/
def expSum : Nat → Nat → Nat → Nat → Nat → Nat
  | 0, _, _, _, acc => acc
  | n + 1, y, t, i, acc => expSum n y (t * y / 2 ^ fixBits / i) (i + 1) (acc + t)
/-- e^y in fixed point for 0 ≤ y < 1. -/
def expFix (y : Nat) : Nat := expSum 90 y (2 ^ fixBits) 1 0
/-- 2^x rounded once. -/
def fEx2 (f : FFmt) (rnd : Rnd) (x : FVal) : FRes :=
  match x with
  | .nan => { bits := f.nan, flags := 0 }
  | .inf n => if n then { bits := f.zero false, flags := 0 } else { bits := f.inf false, flags := 0 }
  | .num neg m e =>
    if m = 0 then f.round rnd .ieee false 1 0 false
    else
      let top := (Nat.log2 m : Int) + e
      if top ≥ 10 then
        if neg then f.round rnd .ieee false (2 ^ 64) (-2064) true else f.round rnd .ieee false 1 2000 false
      else if top < -41 then
        if neg then f.round rnd .ieee false (2 ^ 60 - 1) (-60) true else f.round rnd .ieee false (2 ^ 40) (-40) true
      else
        -- x in units of 2^−fixBits, exactly: e is at least −149 in every format
        let v : Int := (if neg then -1 else 1) * (m : Int) * 2 ^ (fixBits + e).toNat
        let n := v / 2 ^ fixBits
        let fr := (v % 2 ^ fixBits).toNat
        if fr = 0 then f.round rnd .ieee false 1 n false
        else f.round rnd .ieee false (expFix (fr * ln2Fix / 2 ^ fixBits)) (n - fixBits) true
/-- log₂ x rounded once. -/
def fLg2 (f : FFmt) (rnd : Rnd) (x : FVal) : FRes :=
  match x with
  | .nan => { bits := f.nan, flags := 0 }
  | .inf n => if n then { bits := f.nan, flags := flagNV } else { bits := f.inf false, flags := 0 }
  | .num neg m e =>
    if m = 0 then { bits := f.inf true, flags := flagDZ }
    else if neg then { bits := f.nan, flags := flagNV }
    else
      let k := Nat.log2 m
      let ex := (k : Int) + e
      if m = 2 ^ k then
        if ex = 0 then { bits := f.zero false, flags := 0 } else f.round rnd .ieee (decide (ex < 0)) ex.natAbs 0 false
      else
        let l := lnFix m (2 ^ k) * 2 ^ fixBits / ln2Fix
        let v := ex * 2 ^ fixBits + (l : Int)
        if v < 0 then f.round rnd .ieee true (v.natAbs - 1) (-(fixBits : Int)) true
        else f.round rnd .ieee false v.toNat (-(fixBits : Int)) true

/-! ## Conversions (R46, R47) -/

/-- The floating format of a conversion type. -/
def cvtFmt : CvtTy → Option FFmt
  | .e4m3 => some fmtE4M3 | .e5m2 => some fmtE5M2 | .bf16 => some fmtBF16 | .f16 => some fmtF16 | .f32 => some fmtF32
  | .i8 => none | .i32 => none
/-- The exact value of an element of a conversion type. -/
def cvtValue (t : CvtTy) (x : Nat) : FVal :=
  match cvtFmt t with
  | some f => f.decode x
  | none => ofInt (toSigned (8 * t.bytes) x) 0 false
/-- Rounding an exact magnitude to an integer by a mode, with whether it is inexact. -/
def roundInt (rnd : Rnd) (neg : Bool) (m : Nat) (e : Int) : Nat × Bool :=
  if e ≥ 0 then (m * 2 ^ e.toNat, false)
  else
    let sh := (-e).toNat
    let q := m / 2 ^ sh
    let rem := m % 2 ^ sh
    let half := 2 ^ (sh - 1)
    let up := match rnd with
      | .rne => decide (rem > half) || (rem == half && q % 2 == 1)
      | .rtz => false
      | .rdn => neg && rem != 0
      | .rup => !neg && rem != 0
    (if up then q + 1 else q, rem != 0)
/-- Conversion of an exact value to an integer of n bits: clamped with NV, NaN gives 0 with NV, an in-range fraction
discarded sets NX (R45, R46). -/
def toInt (n : Nat) (rnd : Rnd) (v : FVal) : FRes :=
  let hi : Int := 2 ^ (n - 1) - 1
  let lo : Int := -2 ^ (n - 1)
  match v with
  | .nan => { bits := 0, flags := flagNV }
  | .inf neg => { bits := ofSigned n (if neg then lo else hi), flags := flagNV }
  | .num neg m e =>
    -- a magnitude of 2^64 or more is out of range whatever its fraction
    if m ≠ 0 ∧ (Nat.log2 m : Int) + e ≥ 64 then { bits := ofSigned n (if neg then lo else hi), flags := flagNV } else
    let (q, inex) := roundInt rnd neg m e
    let x : Int := if neg then -(q : Int) else q
    if x < lo then { bits := ofSigned n lo, flags := flagNV }
    else if hi < x then { bits := ofSigned n hi, flags := flagNV }
    else { bits := ofSigned n x, flags := if inex then flagNX else 0 }
/-- Conversion of an exact value to a type (R46); `inf` is the .INF modifier. -/
def convert (v : FVal) (dst : CvtTy) (rnd : Rnd) (inf : Bool) : FRes :=
  match cvtFmt dst with
  | none => toInt (8 * dst.bytes) rnd v
  | some f =>
    let ov : Over := if dst == .e4m3 || (dst == .e5m2 && !inf) then .sat else .ieee
    match v with
    | .nan => { bits := f.nan, flags := 0 }
    | .inf n => match ov with
      | .sat => { bits := f.big n, flags := flagNX ||| flagSAT }
      | .ieee => { bits := f.inf n, flags := 0 }
    | .num n m e => f.round rnd ov n m e false
/-- Whether a format is one of the two 8-bit ones. -/
def FFmt.is8 (f : FFmt) : Bool := f.mb ≤ 3
/-- The conversion of an FP32 encoding to a format by RNE, without .INF: the 8-bit formats saturate (R46). -/
def FFmt.fromF32 (f : FFmt) (x : Nat) : FRes :=
  match fmtF32.decode x with
  | .nan => { bits := f.nan, flags := 0 }
  | .inf n => if f.is8 then { bits := f.big n, flags := flagNX ||| flagSAT } else { bits := f.inf n, flags := 0 }
  | .num n m e => f.round .rne (if f.is8 then .sat else .ieee) n m e false
/-- round_rne(x × s, FP32) then conversion (R47, R182). -/
def convertScaled (v : FVal) (sc : Nat) (dst : CvtTy) (rnd : Rnd) (inf : Bool) : FRes :=
  let y := fMul fmtF32 .rne v (fmtF32.decode sc)
  (convert (fmtF32.decode y.bits) dst rnd inf).or y.flags
/-- f(n) := round_rne(n, FP32) (R69). -/
def natF32 (n : Nat) : FRes := fmtF32.round .rne .ieee false n 0 false
/-- FP32 operations by RNE on encodings, the steps of R50, R51 and R69. -/
def add32 (x y : Nat) : FRes := fAdd fmtF32 .rne (fmtF32.decode x) (fmtF32.decode y)
def sub32 (x y : Nat) : FRes := fAdd fmtF32 .rne (fmtF32.decode x) (fmtF32.decode y).negate
def mul32 (x y : Nat) : FRes := fMul fmtF32 .rne (fmtF32.decode x) (fmtF32.decode y)
def div32 (x y : Nat) : FRes := fDiv fmtF32 .rne (fmtF32.decode x) (fmtF32.decode y)
/-- amax_observe on mx and its NaN flag (R52). -/
def amaxObserve (v : FVal) (mx : Nat) (nan : Bool) : Nat × Bool :=
  match v with
  | .nan => (mx, true)
  | .inf _ => (max mx (fmtF32.inf false), nan)
  | .num _ m e =>
    let a := (fmtF32.round .rne .ieee false m e false).bits
    (if mx < a then a else mx, nan)

end Sys2Proof.Machine
end

