-- ==== Sys2Proof/Machine/Memory.lean ====
section
/-! DEFINITION. Operations on a memory held as a list of (address, byte) pairs in canonical form: addresses strictly
rising and no listed byte zero, so that equal memories are equal lists. An unlisted address reads as zero (DESIGN CHOICE, log 3). -/

namespace Sys2Proof.Machine

/-- What an address that is not listed reads as (DESIGN CHOICE, log 3). -/
def Memory.blank : Byte := 0
/-- The byte at an address. -/
def Memory.get (m : Memory) (a : Nat) : Byte :=
  match m with
  | [] => Memory.blank
  | (k, v) :: t => if a = k then v else Memory.get t a
/-- A list cell in front of a memory, unless the byte is the blank one. -/
def Memory.cons (a : Nat) (v : Byte) (m : Memory) : Memory := if v = Memory.blank then m else (a, v) :: m
/-- Placing a byte of an address that is not listed, in rising order. -/
def Memory.insert (m : Memory) (a : Nat) (v : Byte) : Memory :=
  match m with
  | [] => Memory.cons a v []
  | (k, w) :: t => if a < k then Memory.cons a v ((k, w) :: t) else (k, w) :: Memory.insert t a v
/-- Writing one byte. -/
def Memory.set (m : Memory) (a : Nat) (v : Byte) : Memory := Memory.insert (m.filter (fun c => c.1 ≠ a)) a v
/-- The canonical form, with every address at or above `lo`. -/
def Memory.wfFrom (lo : Nat) : Memory → Bool
  | [] => true
  | (k, v) :: t => decide (lo ≤ k) && decide (v ≠ Memory.blank) && Memory.wfFrom (k + 1) t
/-- The canonical form. -/
def Memory.wf (m : Memory) : Bool := Memory.wfFrom 0 m
/-- n bytes from an address, lowest first (R1). -/
def Memory.read (m : Memory) (a n : Nat) : List Byte := (List.range n).map (fun i => m.get (a + i))
/-- Writing bytes from an address, lowest first (R1). -/
def Memory.write (m : Memory) (a : Nat) : List Byte → Memory
  | [] => m
  | b :: bs => Memory.write (m.set a b) (a + 1) bs
/-- Writing bytes at given addresses, in order. -/
def Memory.writeAt (m : Memory) : List (Nat × Byte) → Memory
  | [] => m
  | (a, b) :: t => Memory.writeAt (m.set a b) t
/-- Every byte from lo to hi − 1 made blank. -/
def Memory.clear (m : Memory) (lo hi : Nat) : Memory := m.filter (fun c => c.1 < lo || hi ≤ c.1)
/-- The bytes from lo to hi − 1 alone. -/
def Memory.slice (m : Memory) (lo hi : Nat) : Memory := m.filter (fun c => lo ≤ c.1 && c.1 < hi)
/-- The n bytes from an address on, at another address. -/
def Memory.moved (m : Memory) (lo n to_ : Nat) : Memory := (m.slice lo (lo + n)).map (fun c => (c.1 - lo + to_, c.2))
/-- A memory whose bytes from lo to hi − 1 are those of another. -/
def Memory.splice (m : Memory) (lo hi : Nat) (n : Memory) : Memory :=
  m.filter (fun c => c.1 < lo) ++ n.slice lo hi ++ m.filter (fun c => max lo hi ≤ c.1)

end Sys2Proof.Machine
end

