-- ==== Sys2Proof/Machine/Ops.lean ====
section
/-! DEFINITION. The operations every meaning is built from: reading and writing registers, ranks and buffers, physical
memory, reports, and taking a trap (R24, R219, R220, R326), with the return from one (R221). -/

namespace Sys2Proof.Machine

/-! ## Registers of the focused core's task -/

/-- g[i]; g0 reads zero (R21, R95). -/
def State.g (s : State) (i : GReg) : Word := if i = 0 then 0 else s.r.g[i.toNat]
/-- Writing g[i]; a write to g0 is discarded (R95, R106). -/
def State.setG (s : State) (i : GReg) (x : Word) : State :=
  if i = 0 then s else { s with r := { s.r with g := s.r.g.set i.toNat x } }
/-- p[i]; p0 reads 1 (R91, R95). -/
def State.p (s : State) (i : PReg) : Bool := if i = 0 then true else s.r.p[i.toNat]
/-- Writing p[i]; a write to p0 is discarded (R95). -/
def State.setP (s : State) (i : PReg) (x : Bool) : State :=
  if i = 0 then s else { s with r := { s.r with p := s.r.p.set i.toNat x } }
/-- v[i] of a gang member; member 0 is the leader (R187). -/
def State.v (s : State) (j : Nat) (i : VReg) : VWord :=
  match s.run.gang, j with
  | some ms, k + 1 => if h : k < 3 then ms[k].v[i.toNat] else 0
  | _, _ => s.r.v[i.toNat]
/-- Writing v[i] of a gang member. -/
def State.setV (s : State) (j : Nat) (i : VReg) (x : VWord) : State :=
  match s.run.gang, j with
  | some ms, k + 1 =>
    if h : k < 3 then
      { s with run := { s.run with gang := some (ms.set k { ms[k] with v := ms[k].v.set i.toNat x }) } }
    else s
  | _, _ => { s with r := { s.r with v := s.r.v.set i.toNat x } }
/-- m[i] of a gang member; m0 reads 0xFFFF (R171). -/
def State.m (s : State) (j : Nat) (i : MReg) : BitVec 16 :=
  if i = 0 then 0xFFFF else
  match s.run.gang, j with
  | some ms, k + 1 => if h : k < 3 then ms[k].m[i.toNat] else 0
  | _, _ => s.r.m[i.toNat]
/-- Writing m[i] of a gang member; a write to m0 is discarded (R171). -/
def State.setM (s : State) (j : Nat) (i : MReg) (x : BitVec 16) : State :=
  if i = 0 then s else
  match s.run.gang, j with
  | some ms, k + 1 =>
    if h : k < 3 then
      { s with run := { s.run with gang := some (ms.set k { ms[k] with m := ms[k].m.set i.toNat x }) } }
    else s
  | _, _ => { s with r := { s.r with m := s.r.m.set i.toNat x } }
/-- The members that execute vector commands: the leader, and members 1 to 3 while ganged (R187). -/
def State.members (s : State) : List Nat := if s.run.gang.isSome then [0, 1, 2, 3] else [0]
/-- The qualifier p[PQ] XOR PN (R91). -/
def State.qual (s : State) (h : Hdr) : Bool := xor (s.p h.pq) h.pn
/-- EVSTAT from its fields (R34). -/
def evstatWord (st : Status) (ev inst alt : Nat) : Word :=
  BitVec.ofNat 64 ((inst % 2 ^ 32) * 2 ^ 32 + (ev % 2 ^ 20) * 2 ^ 8 + (alt % 8) * 2 ^ 5 + st.code)
/-- Writing EVSTAT. -/
def State.setEvstat (s : State) (w : Word) : State := { s with r := { s.r with evstat := w } }
/-- Writing a status to EVSTAT and p1 (R34, R40). -/
def State.setStatus (s : State) (st : Status) (ev inst alt : Nat) : State :=
  (s.setEvstat (evstatWord st ev inst alt)).setP 1 st.ok
/-- Setting FPFLAGS bits, when FE is 1 (R36, R45). -/
def State.orFlags (s : State) (fe : Bool) (f : BitVec 6) : State :=
  if fe then { s with r := { s.r with fpflags := s.r.fpflags ||| f } } else s

/-! ## The program counter -/

/-- Whether a LOOP has set the counter up: E is 0 until then, and at least PC + 12 afterwards (R121). -/
def Lc.isSet (l : Lc) : Bool := l.e != 0
/-- Whether a counter is active with its end at the PC (R122); a count given to a counter that no LOOP has set up is
never tested (R121). -/
def Lc.endsAt (l : Lc) (pc : Word) : Bool := l.isSet && l.count != 0 && l.e == pc
/-- The end test of R122 and R123 at a PC: the loop counters and the PC after it, where `seq` is the address of the next
instruction. -/
def endTest (lc : Vector Lc 2) (pc seq : Word) : Vector Lc 2 × Word :=
  let one (i : Fin 2) : Vector Lc 2 × Word :=
    let l := lc[i]
    let n := l.count - 1
    (lc.set i { l with count := n }, if n != 0 then l.s else seq)
  match lc[0].endsAt pc, lc[1].endsAt pc with
  | false, false => (lc, seq)
  | true, false => one 0
  | false, true => one 1
  | true, true =>
    let inner : Fin 2 := if lc[0].s.ult lc[1].s || lc[0].s == lc[1].s then 1 else 0
    let outer : Fin 2 := 1 - inner
    let li := lc[inner]
    let lo := lc[outer]
    let n := li.count - 1
    let k := lo.count - 1
    if n != 0 then (lc.set inner { li with count := n }, li.s)
    else if k != 0 then ((lc.set inner { li with count := li.reload }).set outer { lo with count := k }, lo.s)
    else ((lc.set inner { li with count := 0 }).set outer { lo with count := 0 }, seq)
/-- An instruction has retired: the counters and the PC it leaves, and the segment has begun (R186). -/
def State.retireTo (s : State) (lc : Vector Lc 2) (pc : Word) : State :=
  { s with r := { s.r with lc := lc, pc := pc }, run := { s.run with retired := true } }
/-- A retire with the end test of R122 and R123, for an instruction of `len` bytes that does not itself transfer
control. -/
def State.retire (s : State) (len : Nat) : State :=
  let x := endTest s.r.lc s.r.pc (s.r.pc + BitVec.ofNat 64 len)
  s.retireTo x.1 x.2
/-- A transfer of control to a target (R118 to R120); it runs no end test (R122). -/
def State.jump (s : State) (target : Word) : State :=
  { s with r := { s.r with pc := target }, run := { s.run with retired := true } }

/-! ## Typed buffers and ranks -/

/-- A rank's buffer (R25). -/
def RankSt.buf (k : RankSt) (b : Buf) : Memory :=
  match b with
  | .w => k.w | .a => k.a | .c => k.c
/-- A rank with a buffer replaced. -/
def RankSt.setBuf (k : RankSt) (b : Buf) (m : Memory) : RankSt :=
  match b with
  | .w => { k with w := m } | .a => { k with a := m } | .c => { k with c := m }
/-- The scratchpad map bit of a buffer offset (R355). -/
def mapBit (b : Buf) (off : Nat) : Nat :=
  match b with
  | .w => off / 4096 % 64 | .a => 64 + off / 4096 % 32 | .c => 96 + off / 4096 % 32
/-- The scratchpad map with the blocks of n bytes from an offset set (R355). -/
def markMap (map : BitVec 128) (b : Buf) (off n : Nat) : BitVec 128 :=
  if n = 0 then map else
  (List.range ((off + n - 1) / 4096 - off / 4096 + 1)).foldl
    (fun m i => m ||| (1#128 <<< mapBit b (off + 4096 * i))) map
/-- Writing bytes to a rank's buffer: the bytes land and their blocks are marked (R355). -/
def RankSt.write (k : RankSt) (b : Buf) (off : Nat) (bs : List Byte) : RankSt :=
  { k.setBuf b ((k.buf b).write off bs) with
    map := markMap k.map b off bs.length, unsaved := markMap k.unsaved b off bs.length }
/-- Bytes the spec leaves open, fresh in each step (DESIGN CHOICE, log 9). -/
def State.freeBytes (s : State) (salt n : Nat) : List Byte :=
  (List.range n).map (fun i => Config.freeByte ((s.tick * 2 ^ 32 + salt) * 2 ^ 64 + i))
/-- n bytes of the resident rank's buffer. -/
def State.bufRead (s : State) (b : Buf) (off n : Nat) : List Byte := (s.rank.buf b).read off n
/-- Poisoned buffer lines that a write of n bytes does not cover whole (R361). -/
def clearBufPoison (p : List (RankKey × Buf × Nat)) (key : RankKey) (b : Buf) (off n : Nat) :
    List (RankKey × Buf × Nat) :=
  p.filter (fun x => !(x.1 == key && x.2.1 == b && off ≤ 64 * x.2.2 && 64 * x.2.2 + 64 ≤ off + n))
/-- Writing bytes to the resident rank's buffer. -/
def State.bufWrite (s : State) (b : Buf) (off : Nat) (bs : List Byte) : State :=
  { s with rank := s.rank.write b off bs,
           mod := { s.mod with bufPoison := clearBufPoison s.mod.bufPoison s.rank.key b off bs.length } }
/-! ## Physical memory -/

/-- Physical addresses below this are the module's vaults: 256 GiB (R30, R297; DEDUCED, log 8). -/
def vaultTop : Nat := 2 ^ 38
/-- Whether a physical address lies in the module's vaults. -/
def inVault (pa : Nat) : Bool := pa < vaultTop
/-- Writing bytes at a physical address; a line written whole loses its poison (R361). -/
def State.physWrite (s : State) (pa : Nat) (bs : List Byte) : State :=
  { s with mem := s.mem.write pa bs,
           mod := { s.mod with poison := s.mod.poison.filter (fun l => !(pa ≤ 64 * l && 64 * l + 64 ≤ pa + bs.length)) } }
/-- Whether a list of written bytes covers a whole line. -/
def coversLine (bs : List (Nat × Byte)) (l : Nat) : Bool :=
  (List.range 64).all (fun i => bs.any (fun x => x.1 == 64 * l + i))
/-- Writing single bytes at physical addresses, in order. -/
def State.physWriteAt (s : State) (bs : List (Nat × Byte)) : State :=
  { s with mem := s.mem.writeAt bs, mod := { s.mod with poison := s.mod.poison.filter (fun l => !coversLine bs l) } }

/-! ## Steps owed -/

/-- Owing one more step, after those already owed (R323 order per channel; DESIGN CHOICE, log 5). -/
def State.owe (s : State) (i : Owed) : State := { s with pending := s.pending ++ [i] }
/-- Owing a step unless it is already owed. -/
def State.oweOnce (s : State) (i : Owed) : State := if i ∈ s.pending then s else s.owe i

/-! ## Cores, tasks, contexts and launches -/

/-- Scheduling state of a core that has never run anything. -/
def Sched.fresh (core : Nat) : Sched := { core := core, seq := 0, dq := 0, preempted := [], failed := false, asked := [] }
/-- A core's scheduling state. -/
def State.sched (s : State) (core : Nat) : Sched :=
  (s.mod.scheds.find? (fun c => c.core = core)).getD (Sched.fresh core)
/-- Replacing a core's scheduling state. -/
def State.setSched (s : State) (c : Sched) : State :=
  { s with mod := { s.mod with scheds := c :: s.mod.scheds.filter (fun x => x.core ≠ c.core) } }
/-- The task of an identifier. -/
def State.task (s : State) (id : Nat) : Option Task := s.mod.tasks.find? (fun t => t.id = id)
/-- Applying f to a task. -/
def State.updTask (s : State) (id : Nat) (f : Task → Task) : State :=
  { s with mod := { s.mod with tasks := updWhere (fun t => t.id = id) f s.mod.tasks } }
/-- The running task of the focused core. -/
def State.cur (s : State) : Option Task := s.task s.run.task
/-- The TCB of the running task, when there is one. -/
def State.curHandler (s : State) : Bool := (s.cur.map (fun t => t.tcb.handler)).getD false
/-- The context of a number, when it is allocated. -/
def State.ctx (s : State) (id : Nat) : Option Ctx := s.mod.ctxs.find? (fun c => c.id = id)
/-- Applying f to a context. -/
def State.updCtx (s : State) (id : Nat) (f : Ctx → Ctx) : State :=
  { s with mod := { s.mod with ctxs := updWhere (fun c => c.id = id) f s.mod.ctxs } }
/-- Selected-scope registers of a context number (R340). -/
def State.ctxRegs (s : State) (id : Nat) : CtxRegs :=
  s.mod.ctxRegs[id % 64]'(Nat.mod_lt _ (by decide))
/-- Applying f to the selected-scope registers of a context number. -/
def State.updCtxRegs (s : State) (id : Nat) (f : CtxRegs → CtxRegs) : State :=
  { s with mod := { s.mod with
    ctxRegs := s.mod.ctxRegs.set (id % 64) (f (s.ctxRegs id)) (Nat.mod_lt _ (by decide)) } }
/-- The launch of an identifier. -/
def State.launch (s : State) (id : Nat) : Option Launch := s.mod.launches.find? (fun l => l.id = id)
/-- Applying f to a launch. -/
def State.updLaunch (s : State) (id : Nat) (f : Launch → Launch) : State :=
  { s with mod := { s.mod with launches := updWhere (fun l => l.id = id) f s.mod.launches } }
/-- RANK and NRANK of the running task (R8, R33). -/
def State.rankNo (s : State) : Nat := s.rank.key.rank
def State.nrank (s : State) : Nat := ((s.launch s.rank.key.launch).map (fun l => l.decl.nrank)).getD 0
/-- A fresh identifier. -/
def State.fresh (s : State) : Nat := s.mod.nextId
def State.bump (s : State) : State := { s with mod := { s.mod with nextId := s.mod.nextId + 1 } }
/-- An engine job. -/
def State.job (s : State) (id : Nat) : Option Job := s.mod.jobs.find? (fun j => j.id = id)
def State.updJob (s : State) (id : Nat) (f : Job → Job) : State :=
  { s with mod := { s.mod with jobs := updWhere (fun j => j.id = id) f s.mod.jobs } }
/-- An event's record at its knot. -/
def State.ev (s : State) (e : EvKey) : Option EvState := s.mod.events.find? (fun x => x.key = e)
def State.updEv (s : State) (e : EvKey) (f : EvState → EvState) : State :=
  { s with mod := { s.mod with events := updWhere (fun x => x.key = e) f s.mod.events } }
/-- A choice record. -/
def State.recOf (s : State) (ro : Nat) : Option Rec := s.mod.recs.find? (fun x => x.ro = ro)
def State.updRec (s : State) (ro : Nat) (f : Rec → Rec) : State :=
  { s with mod := { s.mod with recs := updWhere (fun x => x.ro = ro) f s.mod.recs } }
def State.dropRec (s : State) (ro : Nat) : State :=
  { s with mod := { s.mod with recs := s.mod.recs.filter (fun x => x.ro ≠ ro) } }
/-- Taking a record's offers away from every event at once. -/
def State.dropOffers (s : State) (ro : Nat) : State :=
  { s with mod := { s.mod with events := s.mod.events.map (fun x =>
      if x.offers.any (fun o => o.ro = ro) then
        let l := x.offers.filter (fun o => o.ro ≠ ro)
        { x with offers := l, clock := if l.isEmpty then none else x.clock }
      else x) } }
/-- Members of a group row of a context, ascending (R9). -/
def State.group (s : State) (ctx row : Nat) : List Nat :=
  match s.ctx ctx with
  | some c => ((c.groups.find? (fun g => g.row = row)).map (fun g => g.ranks)).getD []
  | none => []
/-- A task becomes ready with the next ready sequence number of its core (R13), and its core looks for work. -/
def State.makeReady (s : State) (id : Nat) : State :=
  match s.task id with
  | none => s
  | some t =>
    let c := s.sched t.core
    let s := (s.setSched { c with seq := c.seq + 1 }).updTask id (fun t => { t with st := .ready c.seq })
    s.oweOnce (.taskDispatch t.core)

/-! ## Ranks that are resident on no core (R319, R333) -/

/-- Bytes of a core's vault (R30, R333). -/
def vaultBytes : Nat := 2 ^ 23
/-- Task records of a core's record area, and their size. -/
def recordSlots : Nat := 64
def recordSize : Nat := 0x6800
/-- The record area of a core: the top 2 MiB of its vault. -/
def recordArea (core : Nat) : Nat := core * 2 ^ 23 + 6 * 2 ^ 20
/-- Where a core's record area holds the state of one of its 256 ranks. -/
def rankStateAt (core slot : Nat) : Nat := recordArea core + recordSize * recordSlots + 256 * slot
/-- Bytes of a save image: W, A and C, whose 4 KiB blocks lie in the order of the map's bits (R333, R355; DEDUCED,
log 39). -/
def imageBytes : Nat := 2 ^ 19
/-- Buffer and offset of a block. -/
def blockOf (i : Nat) : Buf × Nat := if i < 64 then (.w, 4096 * i) else if i < 96 then (.a, 4096 * (i - 64)) else (.c, 4096 * (i - 96))
/-- Bytes of a dirty bitmap (R353). -/
def bitmapBytes : Nat := 2 ^ 19
/-- Setting the bitmap bit of a 64 KiB page that a context owns (R353). -/
def State.markPage (s : State) (ctx pa : Nat) : State :=
  match s.ctx ctx with
  | none => s
  | some c =>
    if !inVault pa then s else
    let n := pa / 2 ^ 16
    let a := c.dirtybase.toNat + n / 8
    { s with mem := s.mem.set a (s.mem.get a ||| BitVec.ofNat 8 (2 ^ (n % 8))) }
/-- 128 bytes of a rank: its windows, its core and generation, and its scratchpad map (R335, R355). The order of what
follows the windows is the model's (DESIGN CHOICE, log 39). -/
def RankSt.image (k : RankSt) : List Byte :=
  k.wins.toList.flatMap (fun w => natBytes 8 w.toNat) ++ natBytes 8 k.core ++ natBytes 8 k.gen ++ natBytes 16 k.map.toNat ++
    zeros 32
/-- A rank with the buffers of its save image (R319). -/
def RankSt.withImage (k : RankSt) (m : Memory) : RankSt :=
  match k.place with
  | none => k
  | some p => { k with
      w := m.moved p (2 ^ 18) 0
      a := m.moved (p + 2 ^ 18) (2 ^ 17) 0
      c := m.moved (p + 2 ^ 18 + 2 ^ 17) (2 ^ 17) 0 }
/-- A rank as memory holds it: its save image, its saved windows and its map (R319, R333). -/
def RankSt.saved (k : RankSt) (m : Memory) : RankSt :=
  let a := rankStateAt k.core k.slot
  if k.place.isNone then k else
    { k.withImage m with
      wins := Vector.ofFn (fun (i : Fin 8) => BitVec.ofNat 64 (leNat (m.read (a + 8 * i.val) 8)))
      map := BitVec.ofNat 128 (leNat (m.read (a + 80) 16))
      unsaved := 0 }
/-- What is kept of a rank beside its image in memory. -/
def RankSt.bare (k : RankSt) : RankSt :=
  if k.place.isNone then k else { k with w := [], a := [], c := [], wins := Vector.replicate 8 0, map := 0, unsaved := 0 }
/-- The blocks of a rank that a map names are written to its save image, each marking its page in the context's bitmap
(R319, R354). -/
def State.writeBlocks (s : State) (k : RankSt) (map : BitVec 128) : State :=
  match k.place with
  | none => s
  | some p =>
    (List.range 128).foldl (fun s i =>
      if map.getLsbD i then
        let x := blockOf i
        let a := p + 4096 * i
        let t : State := s.markPage k.ctx a
        { t with
          mem := t.mem.splice a (a + 4096) ((k.buf x.1).moved x.2 4096 a)
          mod := { t.mod with poison := t.mod.poison.filter (fun l => l < a / 64 || a / 64 + 64 ≤ l) } }
      else s) s
/-- A rank's state written in its core's record area (R333). -/
def State.writeRankState (s : State) (k : RankSt) : State :=
  let a := rankStateAt k.core k.slot
  let bs := k.image ++ zeros 128
  if k.place.isNone || s.mem.read a 256 == bs then s else
  { s with
    mem := s.mem.splice a (a + 256) (Memory.write [] a bs)
    mod := { s.mod with poison := s.mod.poison.filter (fun l => l < a / 64 || a / 64 + 4 ≤ l) } }
/-- A rank that is resident nowhere: the blocks that a map names and its state go to memory. -/
def State.putRank (s : State) (k : RankSt) (map : BitVec 128) : State :=
  let s := (s.writeBlocks k map).writeRankState k
  let l := s.mod.ranks
  { s with mod := { s.mod with
    ranks := if l.any (fun x => x.key == k.key) then updWhere (fun x => x.key = k.key) (fun _ => k.bare) l else k.bare :: l } }
/-- Whether a core's resident rank is a rank's own image, not a visitor's copy of it (R320). -/
def homeOf (key : RankKey) (k : RankSt) (r : Run) : Bool := k.key == key && r.visit.isNone
/-- The rank of a key without its buffers where it is resident nowhere: its placement and its counters. -/
def State.rankEntry (s : State) (key : RankKey) : Option RankSt :=
  if homeOf key s.rank s.run then some s.rank
  else match s.mod.others.find? (fun e => homeOf key e.rank e.run) with
    | some e => some e.rank
    | none => s.mod.ranks.find? (fun k => k.key = key)
/-- The rank of a key: the resident one of the focused core, of another core, or a saved image (R319). -/
def State.getRank (s : State) (key : RankKey) : Option RankSt :=
  if homeOf key s.rank s.run then some s.rank
  else match s.mod.others.find? (fun e => homeOf key e.rank e.run) with
    | some e => some e.rank
    | none => (s.mod.ranks.find? (fun k => k.key = key)).map (fun k => k.saved s.mem)
/-- Applying f to a rank wherever it is held. -/
def State.updRank (s : State) (key : RankKey) (f : RankSt → RankSt) : State :=
  if homeOf key s.rank s.run then { s with rank := f s.rank }
  else if s.mod.others.any (fun e => homeOf key e.rank e.run) then
    { s with mod := { s.mod with
      others := s.mod.others.map (fun e => if homeOf key e.rank e.run then { e with rank := f e.rank } else e) } }
  else match s.mod.ranks.find? (fun k => k.key = key) with
    | none => s
    | some k =>
      let n := f (k.saved s.mem)
      s.putRank n n.unsaved
/-- Ranks that are resident on their cores. -/
def State.residents (s : State) : List RankSt :=
  let own (k : RankSt) (r : Run) : Bool := k.key.launch != 0 && r.visit.isNone
  (if own s.rank s.run then [s.rank] else []) ++ (s.mod.others.filter (fun e => own e.rank e.run)).map (fun e => e.rank)
/-- Ranks of the module, those that are resident nowhere without their buffers. -/
def State.allRanks (s : State) : List RankSt := s.residents ++ s.mod.ranks
/-- A resident rank's blocks that a map names go to its save image, and it stays resident (R357). -/
def State.spillRank (s : State) (k : RankSt) (map : BitVec 128) : State :=
  let n : RankSt := { k with map := k.map &&& ~~~map, unsaved := k.unsaved &&& ~~~map }
  ((s.writeBlocks k map).writeRankState n).updRank k.key (fun _ => n)
/-- Writing bytes to any rank's buffer, resident or not (R319). -/
def State.rankWrite (s : State) (key : RankKey) (b : Buf) (off : Nat) (bs : List Byte) : State :=
  let s := s.updRank key (fun k => k.write b off bs)
  { s with mod := { s.mod with bufPoison := clearBufPoison s.mod.bufPoison key b off bs.length } }

/-! ## Reports -/

/-- Capacity of the report queue (R326). -/
def reportCap : Nat := 4096
/-- TRAPSRC from its fields (R327). -/
def trapsrcWord (slot eng core rank ctx kind : Nat) : Word :=
  BitVec.ofNat 64 ((slot % 2 ^ 13) * 2 ^ 48 + (eng % 8) * 2 ^ 45 + (core % 2 ^ 15) * 2 ^ 30 + (rank % 2 ^ 20) * 2 ^ 10
    + (ctx % 64) * 2 ^ 4 + kind % 16)
/-- A report enters the queue, or waits while the queue is full (R326). -/
def Module.report (m : Module) (r : Report) : Module :=
  if m.reports.length < reportCap then { m with reports := m.reports ++ [r] } else { m with waiting := m.waiting ++ [r] }
/-- Placing a report (R326). While the queue is full it waits at its source, which a core or an engine does not leave:
see `State.stalled` and `State.engStalled`; none is dropped (DEDUCED, log 24). -/
def State.report (s : State) (r : Report) : State := { s with mod := s.mod.report r }
/-- The KIND, ENG and CORE of a report (R327). -/
def Report.eng (r : Report) : Nat := r.src.toNat / 2 ^ 45 % 8
def Report.core (r : Report) : Nat := r.src.toNat / 2 ^ 30 % 2 ^ 15
/-- Whether a core writes a report of this kind: an abort of a task, a refusal, a lost store (R162, R326). -/
def Report.ofCore (r : Report) : Bool := (r.kind == 0 && r.task.isSome) || r.kind == 1 || r.kind == 2
/-- A compute core that must report stalls while its report waits for room (R326). -/
def State.stalled (s : State) (core : Nat) : Bool := s.mod.waiting.any (fun r => r.ofCore && r.core == core)
/-- An engine starts no further job while a report of its own waits for room (R326): the copy unit of a cluster, the
collective engines, the text engines, a crown core. -/
def State.engStalled (s : State) (eng core : Nat) : Bool :=
  s.mod.waiting.any (fun r => r.kind == 3 && r.eng == eng && (match eng with
    | 0 => r.core / 8 == core / 8
    | 3 => r.core == core % 2 ^ 15
    | _ => true))
/-- A report leaves the queue, and the one that has waited longest for room enters it; a core that stalled on it looks for
work again (R326). -/
def State.admitReport (s : State) : State :=
  match s.mod.waiting with
  | [] => s
  | r :: rest =>
    let t : State := { s with mod := { s.mod with reports := s.mod.reports ++ [r], waiting := rest } }
    if r.ofCore then t.oweOnce (.taskDispatch r.core) else t
/-- A report about a task (KIND 0 and 1), with the task's launch counting it (R313). -/
def State.reportTask (s : State) (t : Task) (kind : Nat) (code : BitVec 16) (pc addr msg seq : Word) : State :=
  let s := s.report { kind := kind, code := code, pc := pc, addr := addr, msg := msg, seq := seq,
                      src := trapsrcWord t.slot 0 t.core t.rank.rank t.ctx kind, task := some t.id }
  s.updLaunch t.rank.launch (fun l => { l with traps := l.traps + 1 })
/-- A report of an engine (KIND 3; R326, R327): engine kind, issuer, record offset and job number. -/
def State.reportEngine (s : State) (eng core rank ctx : Nat) (addr : Nat) (no : Nat) : State :=
  s.report { kind := 3, code := Trap.engine.code, pc := 0, addr := BitVec.ofNat 64 addr, msg := BitVec.ofNat 64 (no % 65536),
             seq := 0, src := trapsrcWord 0x1FFF eng core rank ctx 3, task := none }
/-- A report of a lost text frame or chunk (KIND 5). -/
def State.reportFrame (s : State) (ctx req : Nat) : State :=
  s.report { kind := 5, code := Trap.engine.code, pc := 0, addr := 0, msg := BitVec.ofNat 64 req, seq := 0,
             src := trapsrcWord 0x1FFF 0 0 0 ctx 5, task := none }
/-- The task slot that TRAPSRC names: that of a task that lives, else 0x1FFF (R327). -/
def State.slotOf (s : State) (task : Nat) : Nat := ((s.task task).map (fun t => t.slot)).getD 0x1FFF
/-- A report of a lost message (KIND 4), with the slot of the task that deferred it (R326, R327). -/
def State.reportMsg (s : State) (ctx ev inst rank core task : Nat) : State :=
  s.report { kind := 4, code := Trap.evtUnarmed.code, pc := 0, addr := 0,
             msg := BitVec.ofNat 64 (ev % 2 ^ 20 + (inst % 2 ^ 32) * 2 ^ 32), seq := 0,
             src := trapsrcWord (s.slotOf task) 0 core rank ctx 4, task := none }

/-! ## Text requests that end without a reply (R292, R293) -/

/-- Freeing a request at its tokeniser. -/
def State.freeText (s : State) (id : Nat) : State :=
  { s with mod := { s.mod with texts := s.mod.texts.filter (fun x => x.id ≠ id) } }
/-- Freeing a request's reply state at its detokeniser. -/
def State.freeReply (s : State) (id : Nat) : State :=
  { s with mod := { s.mod with replies := s.mod.replies.filter (fun x => x.id ≠ id) } }
/-- A request is abandoned: its held frames are discarded, one FRAME report carries its REQ, the detokeniser is told if
it knows the request, and the request is freed. -/
def State.abandonText (s : State) (x : TextReq) : State :=
  let s := (s.freeText x.id).reportFrame x.ctx x.req
  if x.open_ then s.owe (.dropNotice x.id) else s

/-! ## Summary pairs, as far as an abort touches them (R56, R57) -/

/-- C offset of the committed copy of the pair at `off` (R56). -/
def committedOff (c : Memory) (off : Nat) : Nat := if bitOf (c.get (off + 3)).toNat 0 then off + 4096 else off
/-- C offset of the working copy. -/
def workingOff (c : Memory) (off : Nat) : Nat := if bitOf (c.get (off + 3)).toNat 0 then off else off + 4096
/-- The working copy made equal to the committed copy, but for the TOGGLE byte at the pair base (R57). -/
def RankSt.refresh (k : RankSt) (off : Nat) : RankSt :=
  let cm := committedOff k.c off
  let wk := workingOff k.c off
  let tog := k.c.get (off + 3)
  let k := k.write .c wk (k.c.read cm 4096)
  if wk = off then k.write .c (off + 3) [tog]
  else k
/-- BUSY of both blocks written (R58, R214). -/
def RankSt.setBusy (k : RankSt) (off : Nat) (b : Bool) : RankSt :=
  let f (x : Byte) : Byte := if b then x ||| 2 else x &&& 0xFD
  (k.write .c (off + 2) [f (k.c.get (off + 2))]).write .c (off + 4098) [f (k.c.get (off + 4098))]

/-- The pair at `off` of a visitor's copy of buffer C, and of what was copied in, as its rank's image holds it. -/
def syncVisitor (home : Memory) (off : Nat) (k : RankSt) (r : Run) : RankSt × Run :=
  match r.visit with
  | none => (k, r)
  | some regs =>
    ({ k with c := k.c.splice off (off + 8192) home },
     { r with visit := some (regs.map (fun x => (x.1, if x.1.buf = .c then (x.2.zipIdx).map (fun y =>
        if off ≤ x.1.base + y.2 ∧ x.1.base + y.2 < off + 8192 then home.get (x.1.base + y.2) else y.1) else x.2))) })
/-- A change that an engine makes to a pair of a rank: in the rank's image, and in the copy that a running visitor of the
task holds (R58, R214, R320). -/
def State.updPair (s : State) (task : Nat) (key : RankKey) (off : Nat) (f : RankSt → RankSt) : State :=
  let s := s.updRank key f
  let away (r : Run) : Bool := r.task == task && r.visit.isSome
  match s.getRank key with
  | none => s
  | some h =>
    let x := syncVisitor h.c off s.rank s.run
    let s := if away s.run then { s with rank := x.1, run := x.2 } else s
    { s with mod := { s.mod with others := s.mod.others.map (fun e =>
        if away e.run then
          let y := syncVisitor h.c off e.rank e.run
          { e with rank := y.1, run := y.2 }
        else e) } }
/-- Clearing BUSY of a tap's pair, its keys lost (R214). -/
def State.cancelTap (s : State) (j : Job) : State :=
  match j.kind with
  | .tap off => if j.dropped then s else s.updPair j.task j.rank off (fun k => k.setBusy off false)
  | _ => s
/-- A tap's commit at the occurrence of its completion event: TOGGLE inverted and BUSY cleared (R58, R214). -/
def State.commitTap (s : State) (j : Job) : State :=
  match j.kind with
  | .tap off => s.updPair j.task j.rank off (fun k => (k.write .c (off + 3) [k.c.get (off + 3) ^^^ 1]).setBusy off false)
  | _ => s

/-! ## The combining buffer -/

/-- An instruction of the running task at a place in program order, as the issuer of accesses. -/
def State.issuer (s : State) (pc : Word) (ord : Nat) (bits : List Nat) : Issue where
  pc := pc
  ord := ord
  bits := bits
  src := trapsrcWord ((s.cur.map (fun t => t.slot)).getD 0x1FFF) 0 s.core s.rankNo s.run.ctx 2
  seq := s.r.segseq
/-- The instruction at the PC, after everything issued so far. -/
def State.here (s : State) (bits : List Nat) : Issue := s.issuer s.r.pc s.fresh bits
/-- A posted access, or a part of one, joins those on their way. -/
def State.post (s : State) (i : Issue) (grp elem : Nat) (seq : Bool) (va : Word) (op : FlightOp) : State :=
  let f : Flight := { id := s.fresh, grp := grp, elem := elem, by_ := i, va := va, seq := seq, acq := false, own := true,
                      op := op, performed := false, got := [] }
  ({ s with run := { s.run with flight := s.run.flight ++ [f] } }).bump
/-- Physical addresses an access touches. -/
def FlightOp.pas : FlightOp → List Nat
  | .store bs => bs.map (fun x => x.1)
  | .load _ _ pas => pas
  | .amo _ _ _ _ pas => pas
  | .cas _ _ _ _ pas => pas
/-- Whether a posted access to one of these bytes is still to be performed. -/
def State.onItsWay (s : State) (pas : List Nat) : Bool :=
  s.run.flight.any (fun f => !f.performed && f.op.pas.any (fun a => pas.contains a))
/-- Virtual address of the first byte that a line holds. -/
def CombLine.start (l : CombLine) : Word := l.va + BitVec.ofNat 64 ((l.bytes.head?.map (fun x => x.1 % 64)).getD 0)
/-- A line that leaves the combining buffer is performed as one write; a line outside the module, or to a byte of which an
earlier access is still on its way, is posted, whole (R268). -/
def State.leaveLine (s : State) (l : CombLine) : State :=
  if l.bytes.all (fun x => inVault x.1) && !s.onItsWay (l.bytes.map (fun x => x.1)) then s.physWriteAt l.bytes
  else s.post (s.here l.bits) s.fresh 0 false l.start (.store l.bytes)
/-- The whole buffer leaves (R268). -/
def State.drainComb (s : State) : State :=
  s.run.comb.foldl State.leaveLine ({ s with run := { s.run with comb := [] } } : State)

/-! ## Taking a trap -/

/-- Trap entry of a root-controller core (R219, R220, R340). -/
def State.enterTrap (s : State) (code : BitVec 16) (pc addr : Word) : State :=
  { s with
    run := { s.run with
      idle := false
      sup := { s.run.sup with trapcode := code, trappc := pc, trapaddr := addr,
                              ppriv := s.run.sup.priv, pie := s.run.sup.ie, priv := true, ie := false } }
    r := { s.r with pc := s.run.sup.tvec } }
/-- Dropping the armings of completion events that an aborted segment made (R209, R214): an event whose armed instance
has not occurred is unarmed, its engine offer will be discarded, and the tap of a CPYSK is cancelled. -/
def State.dropArm (s : State) (id : Nat) : State :=
  match s.job id with
  | none => s
  | some j =>
    match j.cev with
    | none => s
    | some e =>
      let live := ((s.ev e).map (fun x => x.armed && x.engine.contains id)).getD false
      if !live then s else
      let engineOffers := (s.mod.recs.filter (fun r => r.owner = .engine id)).map (fun r => r.ro)
      let s := s.updEv e (fun x => { x with armed := false, need := 0, engine := x.engine.filter (· ≠ id),
                                            offers := x.offers.filter (fun o => !engineOffers.contains o.ro) })
      let s := { s with mod := { s.mod with recs := s.mod.recs.filter (fun r => !engineOffers.contains r.ro) } }
      let s := s.updJob id (fun j => { j with dropped := true })
      match j.kind with
      | .tap off => s.updPair j.task j.rank off (fun k => k.setBusy off false)
      | _ => s
/-- A posted access whose segment has been aborted: a store or atomic is still performed, but its answer changes no
register; a load is forgotten (R24). -/
def Flight.orphan (f : Flight) : Option Flight :=
  match f.op with
  | .store _ => some { f with own := false }
  | .load .. => none
  | .amo op dbl v _ pas => some { f with own := false, acq := false, op := .amo op dbl v 0 pas }
  | .cas dbl cmp new _ pas => some { f with own := false, acq := false, op := .cas dbl cmp new 0 pas }
/-- The three other cores of a quad (R186). -/
def quadOthers (core : Nat) : List Nat := ((List.range 4).map (fun i => core / 4 * 4 + i)).filter (· ≠ core)
/-- The other cores of the quad may run again (R186). -/
def State.freeQuad (s : State) : State := (quadOthers s.core).foldl (fun s c => s.oweOnce (.taskDispatch c)) s
/-- The core of the focused segment stops running it: nothing is left but what is already on its way (R24), and its
ganging ends (R186). -/
def State.clearRun (s : State) : State :=
  let o := s.run
  let s := if o.gang.isSome || o.gangWait then s.freeQuad else s
  { s with rank := if o.visit.isSome then noRank else s.rank, run := { Run.fresh o.kind with
      sup := o.sup, credits := o.credits, stale := o.stale ++ o.out, flight := o.flight.filterMap Flight.orphan } }
/-- A job that ends without its engine: its next step only shows its slot done (R334). -/
def State.voidJob (s : State) (id : Nat) : State := (s.updJob id (fun j => { j with st := .done })).oweOnce (.copyJob id)
/-- Jobs of a task that were never issued are discarded: guarded ones, and COLLs not yet committed (R19, R215). -/
def State.dropUnissued (s : State) (task : Nat) (alsoDeferred : Bool) : State :=
  (s.mod.jobs.filter (fun j => j.task == task && (j.st == .guarded || (alsoDeferred && j.st == .deferred)))).foldl
    (fun s j => s.voidJob j.id) s
/-- A try that the segment waits for is withdrawn; one that an event has CLAIMED finishes that claim first (R246, R253). -/
def State.dropTry (s : State) : State :=
  match s.run.trying with
  | none => s
  | some ro =>
    if (s.recOf ro).any (fun r => r.state.isClaimed) then s else (s.dropOffers ro).dropRec ro
/-- What an abort does to the segment's task and rank, before any report (R19, R24, R149, R209). -/
def State.rollback (s : State) : State :=
  let s := s.drainComb
  let s := s.dropTry
  let s := s.dropUnissued s.run.task true
  let s := s.run.arms.foldl (fun s id => s.dropArm id) s
  let k := s.run.pairs.foldl (fun (k : RankSt) p => if p.refreshed then k.refresh p.off else k) s.rank
  let k := s.run.undo.foldl (fun (k : RankSt) u =>
    if h : u.1 < 8 then { k with wins := k.wins.set u.1 u.2 } else k) k
  let r := (s.cur.map (fun t => t.saved)).getD s.r
  ({ s with rank := k, r := r }).clearRun
/-- The activation of an aborted handler goes back to the head of its binding's queue, and the binding is held (R168,
R330). -/
def State.returnAct (s : State) (t : Task) : State :=
  match t.act with
  | none => s
  | some a => s.updEv a.e (fun x => { x with binding := x.binding.map (fun b =>
      { b with queue := a :: b.queue, running := b.running.filter (· ≠ a), held := true }) })
/-- TRAPMSG of a report about a task: a handler's binding and instance (R326). -/
def Task.trapMsg (t : Task) : Word :=
  match t.act with
  | some a => BitVec.ofNat 64 (a.e.ev % 2 ^ 20 + (a.inst % 2 ^ 32) * 2 ^ 32)
  | none => 0
/-- A compute core aborts its segment with a report of KIND 0 and holds the task (R24, R326, R329). While the report
queue is full the report waits and the core stalls: it starts no other segment. -/
def State.abort (s : State) (code : BitVec 16) (pc addr : Word) : State :=
  match s.cur with
  | none => s.rollback
  | some t =>
    let seq := s.r.segseq
    let s := s.rollback
    let s := (s.returnAct t).updTask t.id (fun t => { t with st := .held, hold := true })
    (s.reportTask t 0 code pc addr t.trapMsg seq).oweOnce (.taskDispatch s.core)
/-- A USER routine that faults or overruns: its instance is consumed with ABORTED for every party, and the failure is
reported with code ENGINE (R249). -/
def State.userFail (s : State) (e : EvKey) : State :=
  match s.ev e with
  | none => s
  | some x =>
    let s := x.user.foldl (fun s o => s.owe (.commit { ro := o.ro, alt := o.alt, e := e, inst := x.inst, st := .aborted,
                                                       bs := [] })) s
    let s := s.updEv e (fun x => { x with user := [], inst := (x.inst + 1) % 2 ^ 32 })
    (s.reportEngine 3 0 0 e.ctx 0 0).owe (.userRoutine e)
/-- The event whose USER routine the focused crown core runs: it stands first in the task's activation (R249). -/
def State.userEvent (s : State) : Option EvKey := s.cur.bind (fun t => t.act.map (fun a => a.e))
/-- A crown core drops its routine. -/
def State.endUser (s : State) : State :=
  let id := s.run.task
  let s := s.clearRun
  { s with mod := { s.mod with tasks := s.mod.tasks.filter (fun t => t.id ≠ id) }, rank := noRank }
/-- Taking a trap at an instruction: trap(code) of R5, with the TRAPPC and TRAPADDR it reports. -/
def State.trapAt (s : State) (t : TrapAt) (pc : Word) : State :=
  match s.run.kind with
  | .root => s.enterTrap t.trap.code pc t.addr
  | .compute => s.abort t.trap.code pc t.addr
  | .crown =>
    match s.userEvent with
    | some e => (s.userFail e).endUser
    | none => s.endUser
/-- Taking a trap at the current instruction. -/
def State.trap (s : State) (t : Trap) (addr : Word := 0) : State := s.trapAt { trap := t, addr := addr } s.r.pc
/-- Return from a root-controller trap (R221). -/
def State.eret (s : State) : State :=
  { s with
    r := { s.r with pc := s.run.sup.trappc }
    run := { s.run with sup := { s.run.sup with priv := s.run.sup.ppriv, ie := s.run.sup.pie, pie := true, ppriv := true } } }
/-- Whether the focused core is in supervisor mode (R98, R220). -/
def State.supervisor (s : State) : Bool := s.run.kind == .root && s.run.sup.priv

/-! ## Choosing the focused core -/

/-- What a core holds before anything has run on it. -/
def Exec.fresh (core : Nat) : Exec :=
  { core := core, r := Regs.reset, rank := noRank, cycle := 0,
    run := Run.fresh (if core < 0x8000 then .compute else if core < 0x9000 then .root else .crown) }
/-- Making a core the focused one. -/
def State.focus (s : State) (core : Nat) : State :=
  if s.core = core then s else
  let old : Exec := { core := s.core, r := s.r, run := s.run, rank := s.rank, cycle := s.cycle }
  let new := (s.mod.others.find? (fun e => e.core = core)).getD (Exec.fresh core)
  { s with r := new.r, run := new.run, rank := new.rank, cycle := new.cycle, core := core,
           mod := { s.mod with others := old :: s.mod.others.filter (fun e => e.core ≠ core) } }

/-- What a core holds, focused or not. -/
def State.execOf (s : State) (core : Nat) : Exec :=
  if s.core = core then { core := s.core, r := s.r, run := s.run, rank := s.rank, cycle := s.cycle }
  else (s.mod.others.find? (fun e => e.core = core)).getD (Exec.fresh core)
/-- Applying f to what a core holds. -/
def State.updExec (s : State) (core : Nat) (f : Exec → Exec) : State :=
  let e := f (s.execOf core)
  if s.core = core then { s with r := e.r, run := e.run, rank := e.rank, cycle := e.cycle }
  else { s with mod := { s.mod with others := e :: s.mod.others.filter (fun x => x.core ≠ core) } }
/-- Applying f to what a core runs. -/
def State.updRun (s : State) (core : Nat) (f : Run → Run) : State := s.updExec core (fun e => { e with run := f e.run })

/-! ## Interrupts and health events (R340, R363) -/

/-- Setting an IPEND bit on each of the 16 root-controller cores (R340). -/
def State.raiseIpend (s : State) (bit : Nat) : State :=
  (List.range 16).foldl (fun s i => s.updRun (rootCore + i) (fun r =>
    { r with sup := { r.sup with ipend := r.sup.ipend ||| (1#4 <<< bit) } })) s
/-- Raising an MSI-X vector of the host (R298, R300). -/
def State.raiseVector (s : State) (n : Nat) : State := { s with mod := { s.mod with msix := s.mod.msix ||| (1#66 <<< n) } }
/-- A bit of HEVT; one that becomes 1 raises vector 65 and IPEND bit 2 (R363). -/
def State.healthEvent (s : State) (bit : Nat) : State :=
  let old := s.mod.health.hevt
  if old.getLsbD bit then s
  else
    let t : State := { s with mod := { s.mod with health := { s.mod.health with hevt := old ||| (1#4 <<< bit) } } }
    (t.raiseVector 65).raiseIpend 2
/-- An uncorrectable error that is found: counted, its physical line recorded when it has one (R361). -/
def State.countPoison (s : State) (line : Option Nat) : State :=
  let h := s.mod.health
  let t : State := { s with mod := { s.mod with health := { h with
    hpoison := h.hpoison + 1
    hpaddr := match line with
      | some l => BitVec.ofNat 64 (64 * l % 2 ^ 48)
      | none => h.hpaddr } } }
  t.healthEvent 1

/-! ## Outcomes -/

/-- A scalar instruction of `len` bytes: nothing but the retire when the qualifier is false, else its effect and the
retire (R91, R106). -/
def scalarStep (h : Hdr) (len : Nat) (f : State → State) (s : State) : Host.Outcome State Fault Refusal :=
  .next (if s.qual h then (f s).retire len else s.retire len)
/-- An instruction with checks: a false qualifier retires, else the body decides between its effect and a trap. -/
def checkedStep (h : Hdr) (len : Nat) (f : State → State) (s : State) : Host.Outcome State Fault Refusal :=
  .next (if s.qual h then f s else s.retire len)

end Sys2Proof.Machine
end

