-- ==== Sys2Proof/Machine/Translate.lean ====
section
/-! DEFINITION. Translation of global addresses: page tables (R336), accessed and dirty bits (R337, R354), translation
caches (R339), format descriptors (R338), and the checks of a global access (R30, R130). -/

namespace Sys2Proof.Machine

/-! ## Leaf entries (R336) -/

def leafV (e : Nat) : Bool := bitOf e 0
def leafR (e : Nat) : Bool := bitOf e 1
def leafW (e : Nat) : Bool := bitOf e 2
def leafX (e : Nat) : Bool := bitOf e 3
def leafAmo (e : Nat) : Bool := bitOf e 4
def leafKind (e : Nat) : Nat := bits e 6 5
def leafFmt (e : Nat) : Nat := bits e 10 7
def leafD (e : Nat) : Bool := bitOf e 11
def leafA (e : Nat) : Bool := bitOf e 12
def leafS (e : Nat) : Bool := bitOf e 13
def leafHint (e : Nat) : Nat := bits e 62 48
/-- A leaf entry that translates as V = 0 for its form: a reserved bit set, or S with low PPN bits (R336). -/
def leafBad (e : Nat) : Bool := bitOf e 63 || bits e 15 14 != 0 || (leafS e && bits e 24 16 != 0)
/-- A pointer entry with a bit set other than V and bits 47:15 (R336). -/
def pointerBad (e : Nat) : Bool := bits e 14 1 != 0 || bits e 63 48 != 0
/-- The physical address that a leaf gives a virtual address. -/
def leafPa (e va : Nat) : Nat :=
  if leafS e then bits e 47 25 * 2 ^ 25 + va % 2 ^ 25 else bits e 47 16 * 2 ^ 16 + va % 2 ^ 16

/-- What a walk finds: a valid leaf with the physical address of its entry, a valid bit clear, or a malformed entry. -/
inductive WalkRes where
  | leaf (addr e : Nat)
  | absent
  | bad
  deriving DecidableEq, Repr
/-- Eight bytes of physical memory as a number. -/
def phys64 (mem : Memory) (pa : Nat) : Nat := leNat (mem.read pa 8)
/-- The three-level walk of R336. -/
def walk (mem : Memory) (ptbase va : Nat) : WalkRes :=
  let e0 := phys64 mem (bits ptbase 47 15 * 2 ^ 15 + 8 * bits va 51 40)
  if pointerBad e0 then .bad else if !bitOf e0 0 then .absent else
  let e1 := phys64 mem (bits e0 47 15 * 2 ^ 15 + 8 * bits va 39 28)
  if pointerBad e1 then .bad else if !bitOf e1 0 then .absent else
  let a2 := bits e1 47 15 * 2 ^ 15 + 8 * bits va 27 16
  let e2 := phys64 mem a2
  if leafBad e2 then .bad else if !leafV e2 then .absent else .leaf a2 e2
/-- Whether a cached entry serves a page: its own 64 KiB page, or the 32 MiB range of an entry with S (R336). -/
def TlbEntry.serves (t : TlbEntry) (ctx va : Nat) : Bool :=
  t.ctx == ctx && (if leafS t.leaf.toNat then t.page / 512 == va / 2 ^ 25 else t.page == va / 2 ^ 16)
/-- The caches of a core, in the order in which they are looked up (R339). -/
def coreSites (core : Nat) : List TlbSite := [.core core, .cluster (core / 8)]
/-- The caches in which the unit that acts now looks up a translation: a core's and its cluster's for an instruction, the
cluster's for a copy unit, none for the units of the hub die, which ask a walker (R339).
(DEDUCED, log 19). -/
def State.sites (s : State) : List TlbSite :=
  match s.doing with
  | none => coreSites s.core
  | some (.copyJob id) => ((s.job id).map (fun j => TlbSite.cluster (j.core / 8))).toList
  | some (.jobTranslationResume id) => ((s.job id).map (fun j => TlbSite.cluster (j.core / 8))).toList
  | some _ => []
/-- The cached leaf for an address, if there is one: the core's cache before the cluster's (R339). -/
def State.cached (s : State) (ctx va : Nat) : Option Nat :=
  s.sites.findSome? (fun c => (s.mod.tlb.find? (fun t => t.site == c && t.serves ctx va)).map (fun t => t.leaf.toNat))
/-- The leaf that the walker finds (R336). -/
def State.walked (s : State) (ctx va : Nat) : Option Nat :=
  match walk s.mem (s.ctxRegs ctx).ptbase.toNat va with
  | .leaf _ e => some e
  | _ => none
/-- Entries of a table that have a nonzero byte. -/
def entriesAt (mem : Memory) (base : Nat) : List Nat := ((mem.slice base (base + 32768)).map (fun c => (c.1 - base) / 8)).eraseDups
/-- The tables that a table's valid pointers name. -/
def tablesOf (mem : Memory) (base : Nat) : List Nat :=
  (entriesAt mem base).filterMap (fun i =>
    let e := phys64 mem (base + 8 * i)
    if pointerBad e || !bitOf e 0 then none else some (bits e 47 15 * 2 ^ 15))
/-- Places and values of the valid leaf entries under a root. -/
def leavesOf (mem : Memory) (ptbase : Nat) : List (Nat × Nat) :=
  ((tablesOf mem (bits ptbase 47 15 * 2 ^ 15)).flatMap (tablesOf mem)).flatMap (fun base =>
    (entriesAt mem base).filterMap (fun i =>
      let e := phys64 mem (base + 8 * i)
      if leafBad e || !leafV e then none else some (base + 8 * i, e)))
/-- The leaf entries of a context. -/
def State.leaves (s : State) (ctx : Nat) : List (Nat × Nat) := leavesOf s.mem (s.ctxRegs ctx).ptbase.toNat
/-- The leaf by which an access translates: the cached one, else the walker's, to which a cached one whose D is 0 sends
a write (R337, R339). -/
def State.leafFor (s : State) (ctx va : Nat) (write : Bool := false) : Option Nat :=
  match s.cached ctx va with
  | some e => if write && !leafD e then s.walked ctx va else some e
  | none => s.walked ctx va
/-- Setting the dirty-bitmap bits of a written page in its context's bitmap (R353, R354). -/
def State.markDirty (s : State) (ctx e pa : Nat) : State :=
  match s.ctx ctx with
  | none => s
  | some c =>
    if leafS e && inVault pa then
      { s with mem := s.mem.write (c.dirtybase.toNat + pa / 2 ^ 25 * 64) (List.replicate 64 0xFF) }
    else s.markPage ctx pa
/-- Entries that a cache holds (R339). -/
def TlbSite.room : TlbSite → Nat
  | .core _ => 64
  | .cluster _ => 1024
/-- A cache that is full gives up one of its entries; which one the spec leaves open (DESIGN CHOICE, log 5). -/
def State.evict (s : State) (c : TlbSite) (l : List TlbEntry) : List TlbEntry :=
  let mine := l.filter (fun t => t.site == c)
  if mine.length < c.room then l
  else match mine[Config.pick s.tick % mine.length]? with
    | some t => l.erase t
    | none => l
/-- A cache takes a leaf, in place of one that served the address before. -/
def State.fill (s : State) (ctx va e : Nat) (c : TlbSite) : State :=
  let l := s.evict c (s.mod.tlb.filter (fun t => !(t.site == c && t.serves ctx va)))
  { s with mod := { s.mod with tlb := { site := c, ctx := ctx, page := va / 2 ^ 16, leaf := BitVec.ofNat 64 e } :: l } }
/-- Caching a leaf in some caches. -/
def State.cacheIn (s : State) (cs : List TlbSite) (ctx va e : Nat) : State := cs.foldl (fun s c => s.fill ctx va e c) s
/-- Caching a leaf where the acting unit looks. -/
def State.cacheLeaf (s : State) (ctx va e : Nat) : State := s.cacheIn s.sites ctx va e
/-- An access through a translation: the walker sets A at the first access, and D with the dirty mark at the first
write, before that write is performed (R337, R354); the entry is then cached. -/
def State.touch (s : State) (ctx va : Nat) (write : Bool) : State :=
  match s.leafFor ctx va write with
  | none => s
  | some e =>
    if (s.cached ctx va).any (fun c => leafA c && (!write || leafD c)) then s else
    let e' := e ||| 2 ^ 12 ||| (if write then 2 ^ 11 else 0)
    let s := match walk s.mem (s.ctxRegs ctx).ptbase.toNat va with
      | .leaf a m => { s with mem := s.mem.write a (natBytes 8 (m ||| 2 ^ 12 ||| (if write then 2 ^ 11 else 0))) }
      | _ => s
    let s := if write && !leafD e then s.markDirty ctx e (leafPa e va) else s
    s.cacheLeaf ctx va e'

/-- The same for an access of a rank: the first one to a page enters the context's first-touch history (R27, R317). -/
def State.touchFor (s : State) (ctx va : Nat) (write : Bool) (rank : Nat) : State :=
  let t := s.touch ctx va write
  if (s.leafFor ctx va).any (fun e => !leafA e) then
    { t with mod := { t.mod with touched := t.mod.touched ++ [(ctx, va / 2 ^ 16, rank)] } }
  else t

/-! ## Checks of a global access (R130) -/

/-- The permissions an access needs. -/
structure Need where
  r : Bool
  w : Bool
  x : Bool
  amo : Bool
  deriving DecidableEq, Repr
def needR : Need := { r := true, w := false, x := false, amo := false }
def needW : Need := { r := false, w := true, x := false, amo := false }
def needX : Need := { r := false, w := false, x := true, amo := false }
def needRW : Need := { r := true, w := true, x := false, amo := false }
def needAmo : Need := { r := true, w := true, x := false, amo := true }
/-- The check of one piece against its page. -/
def pieceTrap (e : Option Nat) (n : Need) : Option Trap :=
  match e with
  | none => some .pageNp
  | some e =>
    if (n.r && !leafR e) || (n.w && !leafW e) || (n.x && !leafX e) || (n.amo && !leafAmo e) then some .pagePerm
    else if leafKind e = 3 then some .kind
    else none
/-- First byte of each page piece of n bytes at va, ascending. -/
def pieceStarts (va n : Nat) : List Nat :=
  if n = 0 then [] else
  (List.range ((va + n - 1) / 65536 - va / 65536 + 1)).map (fun i => if i = 0 then va else (va / 65536 + i) * 65536)
/-- Among failing checks in ascending address order, the one R39 puts first, at its lowest address (R130). -/
def firstTrap : List TrapAt → Option TrapAt
  | [] => none
  | t :: ts =>
    match firstTrap ts with
    | none => some t
    | some u => if u.trap.order < t.trap.order then some u else some t
/-- The failing pieces of n bytes at va. -/
def State.pieceTraps (s : State) (ctx va n : Nat) (need : Need) : List TrapAt :=
  (pieceStarts va n).filterMap (fun a => (pieceTrap (s.leafFor ctx a need.w) need).map
    (fun t => { trap := t, addr := BitVec.ofNat 64 a }))
/-- Whether the core addresses without translation: a root-controller core (DESIGN CHOICE, log 2). -/
def State.untranslated (s : State) : Bool := s.run.kind == .root
/-- Size of the root controller's private SRAM (R343). -/
def sramSize : Nat := 8388608
/-- The check of a global access of n bytes at ea (R130). -/
def State.globalTrap (s : State) (ea : Word) (n : Nat) (need : Need) : Option TrapAt :=
  if n = 0 then none
  else if ea.toNat / 2 ^ 52 ≠ 0 ∨ (ea.toNat + n - 1) / 2 ^ 52 ≠ 0 then some { trap := .pageNp, addr := ea }
  else if s.untranslated then
    if ea.toNat + n ≤ 2 ^ 48 then none else some { trap := .pageNp, addr := ea }
  else firstTrap (s.pieceTraps s.run.ctx ea.toNat n need)
/-- Where a byte of a checked global access lies. -/
def State.locOf (s : State) (va : Nat) : Loc :=
  if s.untranslated then
    if va < sramSize then .sram va else .phys va 0
  else
    match s.leafFor s.run.ctx va with
    | some e => .phys (leafPa e va) (BitVec.ofNat 2 (leafKind e))
    | none => .phys 0 0
/-- The places of n bytes at va, lowest first. -/
def State.locs (s : State) (va n : Nat) : List Loc := (List.range n).map (fun i => s.locOf (va + i))
/-- Touching every page of a checked access (R337). -/
def State.touchAll (s : State) (va n : Nat) (write : Bool) : State :=
  if s.untranslated then s else (pieceStarts va n).foldl (fun s a => s.touchFor s.run.ctx a write s.rankNo) s
/-- The walker's own report of a malformed entry that an access of a core, or of a unit on its behalf, meets (R336). -/
def State.reportWalk (s : State) (ctx va core : Nat) (pc : Word) : State :=
  if va / 2 ^ 52 ≠ 0 then s else
  match s.cached ctx va, walk s.mem (s.ctxRegs ctx).ptbase.toNat va with
  | none, .bad => s.report { kind := 0, code := Trap.pageNp.code, pc := pc, addr := BitVec.ofNat 64 va, msg := 0, seq := 0,
                             src := trapsrcWord 0x1FFF 0 core 0 ctx 0, task := none }
  | _, _ => s
/-- Where the descriptor of the page of an address lies (R338). -/
def State.fmtAddr (s : State) (ctx va : Nat) : Nat :=
  (s.ctxRegs ctx).fmtbase.toNat + 16 * ((s.leafFor ctx va).map leafFmt).getD 0
/-- The walker's report for an access that traps: at the address itself for PAGE_NP, at its descriptor for FMT (R336,
R338). -/
def State.walkReport (s : State) (t : TrapAt) : State :=
  if s.untranslated then s
  else match t.trap with
    | .pageNp => s.reportWalk s.run.ctx t.addr.toNat s.core s.r.pc
    | .fmt => s.reportWalk s.run.ctx (s.fmtAddr s.run.ctx t.addr.toNat) s.core s.r.pc
    | _ => s
/-- Taking the trap of a failed global access at an instruction. -/
def State.accessTrap (s : State) (t : TrapAt) (pc : Word) : State := (s.walkReport t).trapAt t pc

/-! ## Accesses on behalf of a context, by units that are no core (R208, R367) -/

/-- The check of n bytes at va in a context. -/
def State.ctxTrap (s : State) (ctx va n : Nat) (need : Need) : Option TrapAt :=
  if n = 0 then none
  else if (va + n - 1) / 2 ^ 52 ≠ 0 then some { trap := .pageNp, addr := BitVec.ofNat 64 va }
  else firstTrap (s.pieceTraps ctx va n need)
/-- The walker's reports of malformed entries among the pages of a range that a unit of a core needs (R336). -/
def State.ctxReports (s : State) (ctx va n core : Nat) : State :=
  (pieceStarts va n).foldl (fun s a => s.reportWalk ctx a core 0) s
/-- Physical addresses of n bytes at va in a context, each page translated once. -/
def State.ctxPas (s : State) (ctx va n : Nat) : List Nat :=
  (pieceStarts va n).flatMap (fun a =>
    let e := s.leafFor ctx a
    (List.range (Nat.min (va + n) ((a / 65536 + 1) * 65536) - a)).map (fun i => (e.map (fun e => leafPa e (a + i))).getD 0))
/-- Reading n bytes at va in a context; the pages are touched. -/
def State.ctxRead (s : State) (ctx va n : Nat) : List Byte := (s.ctxPas ctx va n).map (fun pa => s.mem.get pa)
/-- Writing bytes at va in a context. -/
def State.ctxWrite (s : State) (ctx va : Nat) (bs : List Byte) : State :=
  let pas := s.ctxPas ctx va bs.length
  let s := (pieceStarts va bs.length).foldl (fun s a => s.touch ctx a true) s
  s.physWriteAt (pas.zip bs)
/-- Touching the pages read. -/
def State.ctxTouch (s : State) (ctx va n : Nat) : State := (pieceStarts va n).foldl (fun s a => s.touch ctx a false) s
/-- A unit of a core reads n bytes at va: the walker reports malformed entries that it meets, and where the range is readable
its pages are touched (R336, R337). -/
def State.readRange (s : State) (ctx core : Nat) (x : Nat × Nat) : State :=
  let s := s.ctxReports ctx x.1 x.2 core
  match s.ctxTrap ctx x.1 x.2 needR with
  | some _ => s
  | none => s.ctxTouch ctx x.1 x.2

/-! ## Format descriptors (R32, R338) -/

/-- A format descriptor (R338). -/
structure FmtDesc where
  fmt : Nat
  geom : Nat
  scoff : Nat
  deriving DecidableEq, Repr
/-- The descriptor of 16 bytes, when R338 and R49 accept it. -/
def fmtOf (bs : List Byte) : Option FmtDesc :=
  let f := leNat (bs.take 1)
  let g := leNat ((bs.drop 1).take 1)
  let sc := leNat ((bs.drop 8).take 8)
  if f ≤ 5 ∧ g ≤ 2 ∧ leNat ((bs.drop 2).take 6) = 0 ∧ sc % 4 = 0 ∧ sc < 2 ^ 25 ∧ (g = 0 ∨ f ≤ 1) then
    some { fmt := f, geom := g, scoff := sc }
  else none
/-- Descriptor n of a context as a tile load reads it: cached with the translations, else through FMTBASE (R338). -/
def State.fmtDesc (s : State) (ctx n : Nat) : Option FmtDesc :=
  match s.mod.fmts.find? (fun x => x.1 == s.core && x.2.1 == ctx && x.2.2.1 == n) with
  | some x => fmtOf x.2.2.2
  | none =>
    let va := (s.ctxRegs ctx).fmtbase.toNat + 16 * n
    match s.ctxTrap ctx va 16 needR with
    | some _ => none
    | none => fmtOf (s.ctxRead ctx va 16)
/-- Caching a descriptor that was read, and touching the page that holds it (R337, R338). -/
def State.cacheFmt (s : State) (ctx n : Nat) : State :=
  if s.mod.fmts.any (fun x => x.1 == s.core && x.2.1 == ctx && x.2.2.1 == n) then s else
  let va := (s.ctxRegs ctx).fmtbase.toNat + 16 * n
  match s.ctxTrap ctx va 16 needR with
  | some _ => s
  | none =>
    let t : State := { s with mod := { s.mod with fmts := (s.core, ctx, n, s.ctxRead ctx va 16) :: s.mod.fmts } }
    t.ctxTouch ctx va 16

/-! ## Invalidation (R222) -/

/-- Invalidating the cached translations and descriptors that p selects by context and entry. -/
def State.invalidate (s : State) (p : TlbEntry → Bool) (f : Nat → Bool) : State :=
  { s with mod := { s.mod with tlb := s.mod.tlb.filter (fun t => !p t),
                               fmts := s.mod.fmts.filter (fun x => !f x.2.1) } }
/-- XLINV: every entry. -/
def State.invalidateAll (s : State) : State :=
  { s with mod := { s.mod with tlb := [], fmts := [], walks := [] } }
/-- XLINV.ctx: entries of a context. -/
def State.invalidateCtx (s : State) (ctx : Nat) : State :=
  let s := s.invalidate (fun t => t.ctx == ctx) (fun c => c == ctx)
  { s with mod := { s.mod with walks := s.mod.walks.filter (fun w => w.ctx ≠ ctx) } }
/-- XLINV.va: entries of a context whose page holds an address, and the walks that could install one (R222). -/
def State.invalidateVa (s : State) (ctx va : Nat) : State :=
  let s := s.invalidate (fun t => t.serves ctx va) (fun _ => false)
  { s with mod := { s.mod with walks := s.mod.walks.filter (fun w => !(w.ctx == ctx && w.page / 512 == va / 2 ^ 25)) } }

end Sys2Proof.Machine
end

