-- ==== Sys2Proof/Machine/Access.lean ====
section
/-! DEFINITION. Performing checked accesses: loads with forwarding from the task's own buffered and posted stores
(R129, R133), stores by page kind (R31, R131, R268, R269), poison (R361, R271), releases (R134, R263), and the steps
of posted accesses (R261). -/

namespace Sys2Proof.Machine

/-! ## What a load of the focused task returns (R133) -/

/-- The last byte a list of writes gives an address. -/
def lastWrite (bs : List (Nat × Byte)) (pa : Nat) : Option Byte :=
  bs.foldl (fun acc x => if x.1 = pa then some x.2 else acc) none
/-- The bytes that a posted access of the running task will store. -/
def Flight.stores (f : Flight) : List (Nat × Byte) :=
  match f.op with
  | .store bs => if f.performed || !f.own then [] else bs
  | _ => []
/-- The byte of the combining buffer at an address, if it holds one (R268). -/
def combGet (c : List CombLine) (pa : Nat) : Option Byte :=
  (c.find? (fun l => l.line == pa / 64 && l.bytes.any (fun x => x.1 == pa))).map
    (fun l => (lastWrite l.bytes pa).getD 0)
/-- The byte at a physical address as a load of the focused task returns it: its buffered value, else its latest posted
store, else memory (R133). -/
def State.physByte (s : State) (pa : Nat) : Byte :=
  match combGet s.run.comb pa with
  | some b => b
  | none =>
    match lastWrite (s.run.flight.flatMap Flight.stores) pa with
    | some b => b
    | none => s.mem.get pa
/-- The byte at a place. -/
def State.byteAt (s : State) (l : Loc) : Byte :=
  match l with
  | .phys pa _ => s.physByte pa
  | .buf b off => (s.rank.buf b).get off
  | .sram off => s.sram.get off
/-- The bytes at places, lowest first. -/
def State.bytesAt (s : State) (ls : List Loc) : List Byte := ls.map s.byteAt
/-- Whether a party that backs a physical address has failed (R271). -/
def State.failedAt (s : State) (pa : Nat) : Bool :=
  !inVault pa && s.mod.failed.contains (Config.backing (pa / 2 ^ 16))
/-- Whether the link to a party outside the module is down (R271, R351): for a peer part, every link to it
is down, or holds its flits during a step. -/
def State.linkDown (s : State) (party : Nat) : Bool :=
  if party = 0xFFFF then s.mod.hostDown.isSome
  else
    let ls := s.mod.links.toList.filter (fun l => l.peer.toNat == party)
    !ls.isEmpty && ls.all (fun l => l.down.isSome || l.step.isSome)
/-- Whether an access there can be neither performed nor declared lost yet: the link is down, and has not been down for
the link timeout (R146, R271). -/
def State.waitsLink (s : State) (pa : Nat) : Bool :=
  !inVault pa && s.linkDown (Config.backing (pa / 2 ^ 16)) && !s.failedAt pa
/-- Whether a byte read there is poisoned (R361, R271). -/
def State.poisoned (s : State) (l : Loc) : Bool :=
  match l with
  | .phys pa _ => s.mod.poison.contains (pa / 64) || s.failedAt pa || s.mod.lostPages.contains (pa / 2 ^ 16)
  | .buf b off => s.mod.bufPoison.contains (s.rank.key, b, off / 64)
  | .sram _ => false
/-- A poisoned byte that is consumed is counted; one behind a failed party is no memory error (R361, R271).
(DEDUCED, log 22). -/
def State.consumed (s : State) (l : Loc) : State :=
  match l with
  | .phys pa _ => if s.mod.poison.contains (pa / 64) then s.countPoison (some (pa / 64)) else s
  | .buf _ _ => s.countPoison none
  | .sram _ => s
/-- Index of the first poisoned byte among places, if any. -/
def State.firstPoison (s : State) (ls : List Loc) : Option Nat := ls.findIdx? s.poisoned

/-! ## Stores (R31, R131, R268) -/

/-- Whether a place leaves the core by the network to a party outside the module. -/
def Loc.far : Loc → Bool
  | .phys pa _ => !inVault pa
  | _ => false
/-- Whether a place lies on an SO page. -/
def Loc.so : Loc → Bool
  | .phys _ k => k == 0
  | _ => false
/-- The physical addresses among places. -/
def locPas (ls : List Loc) : List Nat := ls.filterMap (fun l => match l with | .phys pa _ => some pa | _ => none)
/-- The places a command reads in global memory or a buffer (R183, R184, R192). -/
def VCmd.readLocs : VCmd → List Loc
  | .vload _ accs => accs.map (fun a => a.loc)
  | .vgath _ accs _ => accs.map (fun a => a.loc)
  | .tld _ _ rows fill => rows.flatMap (fun r => r.2) ++ (match fill with
      | .page es => es.flatMap (fun e => (e.map (fun x => x.2)).getD [])
      | _ => [])
  | _ => []
/-- The places a command stores to (R183, R184, R193). -/
def VCmd.writeLocs : VCmd → List Loc
  | .vstore _ accs => accs.map (fun a => a.loc)
  | .vscat _ accs => accs.map (fun a => a.loc)
  | .tst _ _ rows => rows.flatMap (fun r => r.2)
  | _ => []
/-- Whether a command accesses an SO page. -/
def VCmd.so (c : VCmd) : Bool := c.readLocs.any Loc.so || c.writeLocs.any Loc.so
/-- Commands held in either queue. -/
def Run.held (r : Run) : List QEntry := r.vq ++ r.mq
/-- Whether an access to an SO page is still to be performed that comes before a place in program order, or among the
parts issued at it (R31, R265). -/
def State.soAhead (s : State) (ord : Nat) : Bool :=
  s.run.flight.any (fun f => f.seq && !f.performed && f.by_.ord ≤ ord) ||
    s.run.held.any (fun e => e.cmd.so && e.seq < ord)
/-- A line with one byte written. -/
def CombLine.put (l : CombLine) (pa : Nat) (b : Byte) : CombLine :=
  { l with bytes := insertBy (fun x y => decide (x.1 ≤ y.1)) (pa, b) (l.bytes.filter (fun x => x.1 ≠ pa)) }
/-- A store's byte into the combining buffer: its line gains the byte, a seventeenth line makes the oldest leave
(R268). Returns the buffer and the line that left. -/
def combPut (c : List CombLine) (now : Nat) (bits : List Nat) (va : Word) (pa : Nat) (b : Byte) :
    List CombLine × Option CombLine :=
  if c.any (fun l => l.line == pa / 64) then
    (c.map (fun l => if l.line == pa / 64 then { l.put pa b with bits := (l.bits ++ bits).eraseDups } else l), none)
  else
    let n : CombLine :=
      { line := pa / 64, va := va - BitVec.ofNat 64 (pa % 64), bytes := [(pa, b)], t0 := now, bits := bits }
    match c with
    | l :: rest => if c.length < 16 then (c ++ [n], none) else (rest ++ [n], some l)
    | [] => ([n], none)
/-- One byte of a store to a UN page, by an access of the kinds `bits`. -/
def State.combStore (s : State) (bits : List Nat) (va : Word) (pa : Nat) (b : Byte) : State :=
  let (c, out) := combPut s.run.comb s.time bits va pa b
  let s := { s with run := { s.run with comb := c } }
  match out with
  | some l => s.leaveLine l
  | none => s
/-- Classes of a store's bytes: performed at once, posted in SO order, posted, or gathered. -/
inductive StoreClass where | now | seqFar | posted | gather
  deriving DecidableEq, Repr
/-- The class of a place for a store at a place in program order; `split` says that the store has other parts. On an SO
page of the vaults an unsplit store is performed at once, unless an earlier SO access is still on its way (R265); an RC
store is posted; a UN store gathers (R31). -/
def State.storeClass (s : State) (ord : Nat) (split : Bool) (l : Loc) : StoreClass :=
  match l with
  | .phys pa k =>
    if k.toNat = 2 then .gather
    else if k.toNat = 1 then .posted
    else if inVault pa && !split && !s.soAhead ord then .now else .seqFar
  | _ => .now
/-- A byte stored at once. -/
def State.storeNow (s : State) (l : Loc) (b : Byte) : State :=
  match l with
  | .phys pa _ => { s with mem := s.mem.set pa b }
  | .buf bf off => { s with rank := s.rank.write bf off [b] }
  | .sram off => { s with sram := s.sram.set off b }
/-- One byte of a store: its virtual address, place and value. -/
structure StoreByte where
  va : Word
  loc : Loc
  b : Byte
  deriving DecidableEq, Repr
/-- The bytes of a store of n bytes from a virtual address. -/
def storeBytes (va : Word) (ls : List Loc) (bs : List Byte) : List StoreByte :=
  ((ls.zip bs).zipIdx).map (fun x => { va := va + BitVec.ofNat 64 x.2, loc := x.1.1, b := x.1.2 })
/-- The physical address of a byte, for places in physical memory. -/
def StoreByte.phys (x : StoreByte) : Option (Nat × Byte) :=
  match x.loc with
  | .phys pa _ => some (pa, x.b)
  | _ => none
/-- The offset of a byte, for places in a buffer. -/
def StoreByte.inBuf (b : Buf) (x : StoreByte) : Option (Nat × Byte) :=
  match x.loc with
  | .buf b' off => if b' = b then some (off, x.b) else none
  | _ => none
/-- Failed parties behind bytes. -/
def lostParties (pas : List Nat) : List Nat := (pas.map (fun pa => Config.backing (pa / 2 ^ 16))).eraseDups
/-- Accesses to failed parties, declared lost: noted for the fences of their task (R146). -/
def State.noteLost (s : State) (bits pas : List Nat) : State :=
  { s with run := { s.run with
      lost := (s.run.lost ++ bits.flatMap (fun b => (lostParties pas).map (fun p => (p, b)))).eraseDups } }
/-- Stores dropped because their party has failed: reported, and noted unless their segment was aborted (R146, R271,
R326). -/
def State.dropStores (s : State) (own : Bool) (i : Issue) (va : Word) (pas : List Nat) : State :=
  if pas.isEmpty then s else
  (if own then s.noteLost i.bits pas else s).report
    { kind := 2, code := Trap.storeLost.code, pc := 0, addr := va, msg := BitVec.ofNat 64 pas.length,
      seq := i.seq, task := none, src := i.src }
/-- The part of a checked store that lies in one place: performed or posted by its page's kind (R131). A whole line
written at once loses its poison (R361). -/
def State.storePart (s : State) (i : Issue) (elem : Nat) (split : Bool) (xs : List StoreByte) : State :=
  match xs with
  | [] => s
  | x :: _ =>
    let bs := xs.filterMap StoreByte.phys
    match s.storeClass i.ord split x.loc with
    | .now =>
      let s := xs.foldl (fun s x => s.storeNow x.loc x.b) s
      { s with mod := { s.mod with
          poison := s.mod.poison.filter (fun l => !coversLine bs l)
          bufPoison := s.mod.bufPoison.filter (fun p => !(p.1 == s.rank.key &&
            coversLine (xs.filterMap (StoreByte.inBuf p.2.1)) p.2.2)) } }
    | .seqFar => s.post i s.fresh elem true x.va (.store bs)
    | .posted => s.post i s.fresh elem false x.va (.store bs)
    | .gather => xs.foldl (fun s x => match x.loc with | .phys pa _ => s.combStore i.bits x.va pa x.b | _ => s) s
/-- Performing a checked store part by part, in order; in a scatter no part is performed before an earlier one, so that
the elements of a scatter with more than one are parts of a split store (R131, R184, R269). -/
def State.storeAt (s : State) (i : Issue) (split scatter : Bool) (parts : List (List StoreByte)) : State :=
  let cut := split || (scatter && decide (1 < parts.length))
  parts.zipIdx.foldl (fun s x => s.storePart i (if scatter then x.2 else 0) cut x.1) s
/-- A list cut where a key changes. -/
def chunks {α : Type} (key : α → Nat) : List α → List (List α)
  | [] => []
  | x :: xs =>
    match chunks key xs with
    | (y :: ys) :: rest => if key x = key y then (x :: y :: ys) :: rest else [x] :: (y :: ys) :: rest
    | _ => [[x]]
/-- The parts of an access of the scalar stream that are performed each by itself (R131): a naturally aligned access is
one part, which lies within one page; any other is atomic only byte by byte. -/
def scalarParts {α : Type} (va n : Nat) (xs : List α) : List (List α) := if va % n = 0 then [xs] else xs.map (fun x => [x])

/-! ## Waiting for earlier accesses (R134, R145, R263, R271) -/

/-- Whether the core still waits for the data of a posted access of its own (R129). -/
def Flight.returns (f : Flight) : Bool :=
  match f.op with
  | .store _ => false
  | _ => true
/-- A load or an atomic. -/
def FlightOp.reads : FlightOp → Bool
  | .store _ => false | _ => true
/-- The register that a posted access will write. -/
def Flight.dest (f : Flight) : GReg :=
  match f.op with
  | .store _ => 0
  | .load _ d _ => d
  | .amo _ _ _ d _ => d
  | .cas _ _ _ d _ => d
/-- The register that a remote request's answer will write. -/
def RemOp.dest_ (o : RemOp) : GReg :=
  match o with
  | .load _ d => d
  | .store _ => 0
  | .amo _ _ _ d => d
/-- Registers whose values are on their way: an instruction that uses one stalls the scalar stream (R129, R140).
(DEDUCED, log 16). -/
def State.awaited (s : State) : List GReg :=
  (s.run.flight.map Flight.dest ++ s.run.out.map (fun q => RemOp.dest_ q.op)).filter (· ≠ 0)
/-- An LD.AQ whose data have not returned: nothing follows it (R134). -/
def State.acquiring (s : State) : Bool := s.run.flight.any (fun f => f.acq && f.returns)
/-- Whether every posted access and every remote request of the segment has been performed. -/
def State.quiet (s : State) : Bool := s.run.flight.isEmpty && s.run.out.isEmpty
/-- Whether every posted access has been performed. -/
def State.flightDone (s : State) : Bool := s.run.flight.isEmpty

/-! ## Posted accesses: performed, then answered (R129, R261) -/

/-- Whether a posted access, or a part of one, comes before another: in program order, else as they were posted. -/
def Flight.precedes (g f : Flight) : Bool := g.by_.ord < f.by_.ord || (g.by_.ord == f.by_.ord && g.id < f.id)
/-- Whether a posted access must be performed before another that it precedes: they touch one byte, both are in SO order,
or it is an earlier element of one scatter (R31, R184, R265). -/
def Flight.holds (g f : Flight) : Bool :=
  (f.seq && g.seq) || (g.by_.ord == f.by_.ord && g.elem < f.elem) || g.op.pas.any (fun a => f.op.pas.contains a)
/-- Whether a held command that comes before a posted access must be performed before it: both are SO accesses, or both
read one byte (R31, R265). A held store to a byte of it lets no access to that byte go (State.needs). -/
def Run.heldFor (r : Run) (f : Flight) : Bool :=
  r.held.any (fun e => decide (e.seq < f.by_.ord) && ((f.seq && e.cmd.so) ||
    (f.op.reads && (locPas e.cmd.readLocs).any (fun a => f.op.pas.contains a))))
/-- Whether a posted access may be performed now, as far as its own core's accesses go. -/
def Run.flightReady (r : Run) (f : Flight) : Bool :=
  !f.performed && r.flight.all (fun g => g.performed || !g.precedes f || !g.holds f) && !r.heldFor f
/-- Whether a posted access waits for a held command, itself or through at most n posted accesses before it. -/
def Run.stuckIn (r : Run) : Nat → Flight → Bool
  | 0, f => !f.performed && r.heldFor f
  | n + 1, f => !f.performed && (r.heldFor f || r.flight.any (fun g => g.precedes f && g.holds f && r.stuckIn n g))
/-- Whether a posted access waits for a held command. -/
def Run.stuck (r : Run) (f : Flight) : Bool := r.stuckIn r.flight.length f
/-- Whether a posted access of a core may be performed now: its turn has come, and no byte waits for a link (R146). -/
def State.flightReady (s : State) (r : Run) (f : Flight) : Bool :=
  r.flightReady f && !f.op.pas.any s.waitsLink
/-- The parts of a posted access. -/
def Run.parts (r : Run) (f : Flight) : List Flight := r.flight.filter (fun g => g.grp == f.grp)
/-- Reading the bytes at physical addresses. -/
def memAt (m : Memory) (pas : List Nat) : List Byte := pas.map (fun a => m.get a)
/-- The new value of an atomic of R135 on n = 4 or 8 bytes. -/
def amoNew (op : AmoOp) (dbl : Bool) (old v : Word) : Word :=
  let w := if dbl then 64 else 32
  let o := zextN w old
  let x := zextN w v
  let so := sextN w old
  let sx := sextN w v
  match op with
  | .add => zextN w (o + x)
  | .and => o &&& x
  | .or => o ||| x
  | .xor => o ^^^ x
  | .min => if so.slt sx then o else x
  | .max => if so.slt sx then x else o
  | .minu => if o.ult x then o else x
  | .maxu => if o.ult x then x else o
  | .swap => x
/-- The old value an atomic returns: sign-extended for .w (R135). -/
def amoOld (dbl : Bool) (old : Word) : Word := if dbl then old else sextN 32 old
/-- Bytes of an atomic's operand. -/
def amoSize (dbl : Bool) : Nat := if dbl then 8 else 4
/-- Virtual address of the i-th byte of a posted access, which lies within one page; a store may have gaps. -/
def Flight.vaOf (f : Flight) (i : Nat) : Word := f.va + BitVec.ofNat 64 (f.op.pas.getD i 0 - f.op.pas.headD 0)
/-- Index of the first byte of a posted access that cannot be performed: one at a failed party, or a poisoned one that it
reads (R271, R361). -/
def State.lostAt (s : State) (f : Flight) : Option Nat :=
  match f.op with
  | .store bs => bs.findIdx? (fun x => s.failedAt x.1)
  | op => op.pas.findIdx? (fun pa => s.poisoned (.phys pa 0))
/-- Taking a posted access off the core. -/
def State.dropFlight (s : State) (id : Nat) : State :=
  { s with run := { s.run with flight := s.run.flight.filter (fun g => g.id ≠ id) } }
/-- A posted access that has been performed, with the bytes it read. -/
def State.doneFlight (s : State) (id : Nat) (got : List Byte) : State :=
  { s with run := { s.run with
      flight := updWhere (fun g => g.id = id) (fun g => { g with performed := true, got := got }) s.run.flight } }
/-- Performing a posted access at its vault, host memory or peer part (R261): memory changes, and what was read is kept
for the answer. Bytes of a store or an atomic that lie at a failed party are dropped and reported; a read there gives
POISON (R271). -/
def State.performFlight (s : State) (id : Nat) : State :=
  match s.run.flight.find? (fun f => f.id = id) with
  | none => s
  | some f =>
    if !s.flightReady s.run f then s else
    let lostPas := f.op.pas.filter s.failedAt
    match f.op, s.lostAt f with
    | .store bs, some i =>
      let ok := bs.filter (fun x => !s.failedAt x.1)
      let s := (s.physWriteAt ok).dropStores f.own f.by_ (f.vaOf i) lostPas
      if ok.isEmpty then s.dropFlight id else s.doneFlight id []
    | op, some i =>
      let va := f.vaOf i
      let s :=
        if lostPas.isEmpty then (op.pas[i]?).elim s (fun pa => s.consumed (.phys pa 0))
        else match op with
          | .load .. => s.noteLost f.by_.bits lostPas
          | _ => s.dropStores f.own f.by_ va lostPas
      let s := s.dropFlight id
      if f.own then s.trapAt { trap := .poison, addr := va } f.by_.pc else s
    | .store bs, none => (s.physWriteAt bs).doneFlight id []
    | .load _ _ pas, none => s.doneFlight id (memAt s.mem pas)
    | .amo op dbl v _ pas, none =>
      let old := memAt s.mem pas
      (s.physWriteAt (pas.zip (natBytes (amoSize dbl) (amoNew op dbl (BitVec.ofNat 64 (leNat old)) v).toNat))).doneFlight
        id old
    | .cas dbl cmp new _ pas, none =>
      let old := memAt s.mem pas
      let w := if dbl then 64 else 32
      let s := if zextN w (BitVec.ofNat 64 (leNat old)) == zextN w cmp then
          s.physWriteAt (pas.zip (natBytes (amoSize dbl) new.toNat))
        else s
      s.doneFlight id old
/-- The answer of an access returns once all its parts have been performed: a store is acknowledged, a read value reaches
its register, extended (R129, R132, R135). -/
def State.answerFlight (s : State) (id : Nat) : State :=
  match s.run.flight.find? (fun f => f.id = id) with
  | none => s
  | some f =>
    let parts := s.run.parts f
    if !parts.all (fun g => g.performed) then s else
    let s := { s with run := { s.run with flight := s.run.flight.filter (fun g => g.grp ≠ f.grp) } }
    let got : Word := BitVec.ofNat 64 (leNat f.got)
    match f.op with
    | .store _ => s
    | .load wd d _ => s.setG d (wd.extend (parts.flatMap (fun g => g.got)))
    | .amo _ dbl _ d _ => s.setG d (amoOld dbl got)
    | .cas dbl _ _ d _ => s.setG d (amoOld dbl got)

/-! ## Registers written while a value is on its way (R129) -/

/-- Registers that a held command of a queue will write: the destinations of VEXT and MXR (R126, R180, R205). -/
def QEntry.gDest (e : QEntry) : GReg :=
  match e.cmd with
  | .vext _ d _ _ => d
  | .mxr d _ => d
  | _ => 0
/-- A held command whose destination a later instruction overwrites writes nothing any more. -/
def QEntry.overwritten (ws : List GReg) (e : QEntry) : QEntry :=
  match e.cmd with
  | .vext l d a ix => if d ∈ ws then { e with cmd := .vext l 0 a ix } else e
  | .mxr d a => if d ∈ ws then { e with cmd := .mxr 0 a } else e
  | _ => e
/-- A posted access whose destination a later instruction overwrites: its answer writes nothing any more. -/
def Flight.overwritten (ws : List GReg) (f : Flight) : Flight :=
  match f.op with
  | .store _ => f
  | .load wd d pas => if d ∈ ws then { f with op := .load wd 0 pas } else f
  | .amo op dbl v d pas => if d ∈ ws then { f with op := .amo op dbl v 0 pas } else f
  | .cas dbl cmp new d pas => if d ∈ ws then { f with op := .cas dbl cmp new 0 pas } else f
/-- The same of a remote request (R140). -/
def reqOverwritten (ws : List GReg) (q : RemoteReq) : RemoteReq :=
  match q.op with
  | .store _ => q
  | .load wd d => if d ∈ ws then { q with op := .load wd 0 } else q
  | .amo op dbl v d => if d ∈ ws then { q with op := .amo op dbl v 0 } else q
/-- What is held or on its way once an instruction writes registers.
(DEDUCED, log 15; DEDUCED, log 16). -/
def State.overwrite (s : State) (ws : List GReg) : State :=
  { s with run := { s.run with
      vq := s.run.vq.map (QEntry.overwritten ws), mq := s.run.mq.map (QEntry.overwritten ws)
      flight := s.run.flight.map (Flight.overwritten ws), out := s.run.out.map (reqOverwritten ws) } }
/-- Whether nothing is held and nothing on its way writes a register. -/
def State.noneComing (s : State) : Bool := s.run.held.isEmpty && s.awaited.isEmpty
/-- The same, where something is coming at all. -/
def State.overwriteAll (s : State) (ws : List GReg) : State := if s.noneComing then s else s.overwrite ws

end Sys2Proof.Machine
end

