-- ==== Sys2Proof/Machine/Fetch.lean ====
section
/-! DEFINITION. Fetching an instruction (R87, R88, R100, R120): the translation and X check, the length, the 32-byte
boundary, and the bytes. -/

namespace Sys2Proof.Machine

/-- The byte a fetch reads at a place. -/
def State.fetchByte (s : State) (l : Loc) : Byte :=
  match l with
  | .phys pa _ => s.mem.get pa
  | .buf b off => (s.rank.buf b).get off
  | .sram off => s.sram.get off
/-- The check of a fetch of n bytes at an address: translation, X, poison; TRAPADDR is the address (R120, R366). -/
def State.fetchTrap (s : State) (a : Word) (n : Nat) : Option TrapAt :=
  match s.globalTrap a n needX with
  | some t => some { t with addr := a }
  | none => if (s.firstPoison (s.locs a.toNat n)).isSome then some { trap := .poison, addr := a } else none
/-- The n bytes that a fetch reads. -/
def State.fetchBytes (s : State) (a : Word) (n : Nat) : List Byte := (s.locs a.toNat n).map s.fetchByte
/-- The length in bytes that LEN at an address gives, or the trap of reading it there (R88, R121). -/
inductive LenRes where
  | trap (t : TrapAt)
  | len (n : Nat)
  deriving DecidableEq, Repr
/-- Reading LEN at an address (R88). -/
def State.fetchLen (s : State) (a : Word) : LenRes :=
  match s.fetchTrap a 4 with
  | some t => .trap t
  | none =>
    match lenBytes ((((s.fetchBytes a 1).headD 0)).extractLsb' 0 2) with
    | none => .trap { trap := .illegal, addr := 0 }
    | some n => .len n
/-- What a fetch gives: a trap, or what the decoder reads. -/
inductive FetchRes where
  | trap (t : TrapAt)
  | got (d : Decoded)
  deriving DecidableEq, Repr
/-- The fetch at the PC: LEN, then the boundary, then the rest (R88, R100). -/
def State.fetch (s : State) : FetchRes :=
  match s.fetchLen s.r.pc with
  | .trap t => .trap t
  | .len n =>
    if s.r.pc.toNat % 32 + n > 32 then .trap { trap := .align, addr := s.r.pc }
    else
      match s.fetchTrap s.r.pc n with
      | some t => .trap t
      | none => .got (decodeBytes (s.fetchBytes s.r.pc n))

end Sys2Proof.Machine
end

