-- ==== Sys2Proof/Machine/Operands.lean ====
section
/-! DEFINITION. The operand forms of instructions: immediates, effective addresses, scalar sources, liveness masks, and
the checks of typed-buffer operands (R26, R83, R93, R129, R150, R366). -/

namespace Sys2Proof.Machine

/-- sext(imm30, 30) (R110). -/
def imm30 (i : BitVec 30) : Word := i.signExtend 64
/-- sext(imm16, 16). -/
def imm16 (i : BitVec 16) : Word := i.signExtend 64
/-- sext(ext32, 32) (R129). -/
def off32 (i : BitVec 32) : Word := i.signExtend 64
/-- Address or buffer offset g[a] + sext(ext32, 32) (R129). -/
def State.ea (s : State) (a : GReg) (off : BitVec 32) : Word := s.g a + off32 off
/-- C offset g[a] + sext(imm16, 16) (R157, R163, R203, R208). -/
def State.ea16 (s : State) (a : GReg) (off : BitVec 16) : Word := s.g a + imm16 off
/-- Target of a B-format branch: PC + 4 × sext(off31, 31) (R118, R119). -/
def State.branchTarget (s : State) (off : BitVec 31) : Word := s.r.pc + 4 * off.signExtend 64
/-- The event name (EVENT + g[b]) mod 2^20 (R83, R150). -/
def State.eventName (s : State) (ev : BitVec 20) (b : GReg) : Nat := (ev.toNat + (s.g b).toNat) % 2 ^ 20
/-- The liveness mask of a wait: g[c] when the c field is nonzero, CSR LIVE otherwise (R20). -/
def State.liveMask (s : State) (c : GReg) : Word := if c = 0 then s.r.live else s.g c
/-- Whether every offset of a range lies in some region of a visitor's footprint (R320); a task on its own core reaches
the whole buffer. -/
def State.visible (s : State) (b : Buf) (off n : Nat) : Bool :=
  match s.run.visit with
  | none => true
  | some fs => (List.range n).all (fun i =>
      fs.any (fun f => f.1.buf == b && f.1.base ≤ off + i && off + i < f.1.base + f.1.len))
/-- The check of a typed-buffer access of n bytes aligned to `al` (R26, R138). -/
def State.bufTrap (s : State) (b : Buf) (off : Word) (n al : Nat) : Option TrapAt :=
  if off.toNat % al ≠ 0 then some { trap := .align, addr := typedAddr b off }
  else if b.size < off.toNat + n || !s.visible b off.toNat n then some { trap := .pagePerm, addr := typedAddr b off }
  else none
/-- The places of n bytes of a typed buffer. -/
def bufLocs (b : Buf) (off n : Nat) : List Loc := (List.range n).map (fun i => .buf b (off + i))
/-- TRAPADDR of the first poisoned byte of an access that starts at a virtual address or a typed-buffer offset (R366). -/
def poisonAddr (base : Word) (i : Nat) : Word := base + BitVec.ofNat 64 i
/-- The instruction stands at the end of an active loop counter (R124). -/
def State.atLoopEnd (s : State) : Bool := s.r.lc[0].endsAt s.r.pc || s.r.lc[1].endsAt s.r.pc

end Sys2Proof.Machine
end

