-- ==== Sys2Proof/Machine/Lanes.lean ====
section
/-! DEFINITION. Lanes, masks and the execution of vector commands (R170 to R188), for the leader and, while ganged, for
every member of the quad. -/

namespace Sys2Proof.Machine

/-! ## Lanes (R170, R171) -/

/-- Lane i of width w bytes. -/
def lane (w i : Nat) (v : VWord) : Nat := v.toNat / 2 ^ (8 * w * i) % 2 ^ (8 * w)
/-- A vector from a function of its lane index. -/
def ofLanes (w : Nat) (f : Nat → Nat) : VWord :=
  BitVec.ofNat 128 ((List.range (16 / w)).foldl (fun acc i => acc + (f i % 2 ^ (8 * w)) * 2 ^ (8 * w * i)) 0)
/-- Whether a lane is enabled: the mask bit of its lowest byte (R171). -/
def enabled (m : BitVec 16) (w i : Nat) : Bool := m.getLsbD (w * i)
/-- A vector whose disabled lanes keep the old bytes (R171). -/
def masked (m : BitVec 16) (w : Nat) (old : VWord) (f : Nat → Nat) : VWord :=
  ofLanes w (fun i => if enabled m w i then f i else lane w i old)
/-- Results of lanes with the flags of the enabled ones (R172). -/
def maskedF (m : BitVec 16) (w : Nat) (old : VWord) (f : Nat → FRes) : VWord × Flags :=
  (masked m w old (fun i => (f i).bits),
   (List.range (16 / w)).foldl (fun acc i => if enabled m w i then acc ||| (f i).flags else acc) 0)
/-- A mask with all w bits of each lane for which f holds (R171). -/
def ofLaneBits (w : Nat) (f : Nat → Bool) : BitVec 16 :=
  BitVec.ofNat 16 ((List.range (16 / w)).foldl (fun acc i => acc + (if f i then (2 ^ w - 1) * 2 ^ (w * i) else 0)) 0)
/-- Byte j of a vector. -/
def vbyte (v : VWord) (j : Nat) : Byte := BitVec.ofNat 8 (lane 1 j v)
/-- A vector with one byte written. -/
def setByte (v : VWord) (j : Nat) (b : Byte) : VWord := ofLanes 1 (fun i => if i = j then b.toNat else lane 1 i v)

/-- The floating format and lane width of a lane type (R170). -/
def FTy.fmt : FTy → FFmt
  | .f32 => fmtF32 | .bf16 => fmtBF16 | .f16 => fmtF16
def FTy.bytes : FTy → Nat
  | .f32 => 4 | .bf16 => 2 | .f16 => 2
def VTy.bytes : VTy → Nat
  | .b => 1 | .h => 2 | .w => 4 | .d => 8 | .f32 => 4 | .bf16 => 2 | .f16 => 2
def VTy.fmt : VTy → Option FFmt
  | .f32 => some fmtF32 | .bf16 => some fmtBF16 | .f16 => some fmtF16
  | _ => none

/-! ## Lane operations -/

/-- An integer lane operation on n bits (R173). -/
def vintOp (op : VIntOp) (n x y : Nat) : Nat :=
  let sx := toSigned n x
  let sy := toSigned n y
  match op with
  | .add => (x + y) % 2 ^ n
  | .sub => (x + 2 ^ n - y) % 2 ^ n
  | .mul => x * y % 2 ^ n
  | .mulh => ofSigned n (sx * sy / 2 ^ n)
  | .min => if sx < sy then x else y
  | .max => if sx < sy then y else x
  | .minu => min x y
  | .maxu => max x y
  | .and => x &&& y
  | .or => x ||| y
  | .xor => x ^^^ y
  | .andn => x &&& (2 ^ n - 1 - y)
  | .shl => x * 2 ^ (y % n) % 2 ^ n
  | .shr => x / 2 ^ (y % n)
  | .sar => ofSigned n (sx / 2 ^ (y % n))
/-- An integer lane operation with one source (R173). -/
def vunOp (op : VUnOp) (n x : Nat) : Nat :=
  match op with
  | .abs => if toSigned n x < 0 then (2 ^ n - x) % 2 ^ n else x
  | .neg => (2 ^ n - x) % 2 ^ n
/-- A floating lane operation (R175). -/
def vfpOp (op : FpOp) (f : FFmt) (rnd : Rnd) (x y : Nat) : FRes :=
  match op with
  | .add => fAdd f rnd (f.decode x) (f.decode y)
  | .sub => fAdd f rnd (f.decode x) (f.decode y).negate
  | .mul => fMul f rnd (f.decode x) (f.decode y)
  | .div => fDiv f rnd (f.decode x) (f.decode y)
  | .min => fMinMax f true x y
  | .max => fMinMax f false x y
/-- A floating lane operation with one source (R175). -/
def vfpuOp (op : FpUnOp) (f : FFmt) (rnd : Rnd) (x : Nat) : FRes :=
  match op with
  | .sqrt => fSqrt f rnd (f.decode x)
  | .abs => if f.decode x == .nan then { bits := f.nan, flags := 0 } else { bits := x % 2 ^ (f.width - 1), flags := 0 }
  | .neg => if f.decode x == .nan then { bits := f.nan, flags := 0 } else
      { bits := x ^^^ 2 ^ (f.width - 1), flags := 0 }
  | .ex2 => fEx2 f rnd (f.decode x)
  | .lg2 => fLg2 f rnd (f.decode x)
/-- A fused multiply-add (R176). -/
def vfmaOp (op : FmaOp) (f : FFmt) (rnd : Rnd) (x y z : Nat) : FRes :=
  match op with
  | .ma => fFma f rnd false false (f.decode x) (f.decode y) (f.decode z)
  | .ms => fFma f rnd false true (f.decode x) (f.decode y) (f.decode z)
  | .nma => fFma f rnd true false (f.decode x) (f.decode y) (f.decode z)
/-- A lane compare (R177). -/
def vcmpOp (c : Cond) (t : VTy) (x y : Nat) : Bool :=
  match VTy.fmt t with
  | some f =>
    let a := f.decode x
    let b := f.decode y
    match c with
    | .eq => a.eqNum b
    | .ne => !a.eqNum b
    | .lt => a.ltNum b
    | .ge => a != .nan && b != .nan && !a.ltNum b
    | .ltu => false
    | .geu => false
  | none =>
    let n := 8 * VTy.bytes t
    match c with
    | .eq => x == y
    | .ne => x != y
    | .lt => toSigned n x < toSigned n y
    | .ge => !(toSigned n x < toSigned n y)
    | .ltu => x < y
    | .geu => !(x < y)

/-! ## Queue registers as sources (R16, R86) -/

/-- Removing the oldest entry of a queue register; an empty one gives 0, but no command runs then (Streams.lean). -/
def State.popQ (s : State) (q : QReg) : Word × State :=
  match s.r.q[q.toNat] with
  | [] => (0, s)
  | x :: rest => (x, { s with r := { s.r with q := s.r.q.set q.toNat rest } })
/-- The value of a scalar source when the command executes. -/
def State.src (s : State) (v : VSrc) : Word × State :=
  match v with
  | .val x => (x, s)
  | .q q => s.popQ q

/-! ## Execution -/

/-- Running f for every member in order 0 to 3 (R187). -/
def State.perMember (s : State) (f : State → Nat → State) : State := s.members.foldl f s
/-- A masked vector result for every member, with FPFLAGS (R171, R172, R187). -/
def State.vresult (s : State) (fe : Bool) (d : VReg) (m : MReg) (w : Nat) (f : State → Nat → Nat → FRes) : State :=
  s.perMember (fun t j =>
    let (x, fl) := maskedF (t.m j m) w (t.v j d) (f t j)
    (t.setV j d x).orFlags fe fl)
/-- A masked vector result without flags. -/
def State.vresultI (s : State) (d : VReg) (m : MReg) (w : Nat) (f : State → Nat → Nat → Nat) : State :=
  s.perMember (fun t j => t.setV j d (masked (t.m j m) w (t.v j d) (f t j)))

/-- Number of elements a VCVT converts (R181). -/
def cvtCount (src dst : CvtTy) : Nat := 16 / max src.bytes dst.bytes
/-- One member's VCVT: result vector, amax and flags (R181, R182). -/
def vcvtMember (src dst : CvtTy) (part : Nat) (rnd : Rnd) (inf : Bool) (sc : Option Word) (ae : Option MxReg)
    (m : BitVec 16) (a old : VWord) (mx : Nat) (nan : Bool) : VWord × Flags × Nat × Bool :=
  let ss := src.bytes
  let ds := dst.bytes
  let n := cvtCount src dst
  let sbase := if ss < ds then part * n * ss else 0
  let dbase := if ds < ss then part * n * ds else 0
  (List.range n).foldl (fun (acc : VWord × Flags × Nat × Bool) i =>
    let dpos := dbase + i * ds
    if !m.getLsbD dpos then acc else
    let x := a.toNat / 2 ^ (8 * (sbase + i * ss)) % 2 ^ (8 * ss)
    let v := cvtValue src x
    let (mx, nan) := match ae with
      | some _ => amaxObserve v acc.2.2.1 acc.2.2.2
      | none => (acc.2.2.1, acc.2.2.2)
    let r := match sc with
      | none => convert v dst rnd inf
      | some w => convertScaled v (w.toNat % 2 ^ 32) dst rnd inf
    (ofLanes ds (fun k => if k * ds = dpos then r.bits else lane ds k acc.1), acc.2.1 ||| r.flags, mx, nan))
    (old, 0, mx, nan)
/-- mx[n] and its NaN flag; writing both. -/
def State.mxGet (s : State) (n : MxReg) : Nat × Bool := (s.r.mx[n.toNat].toNat, s.r.mxflag.getLsbD n.toNat)
def State.mxSet (s : State) (n : MxReg) (x : Nat) (nan : Bool) : State :=
  { s with r := { s.r with
      mx := s.r.mx.set n.toNat (BitVec.ofNat 32 x)
      mxflag := if nan then s.r.mxflag ||| (1#4 <<< n.toNat) else s.r.mxflag } }
/-- Writing vector bytes read from places (R183). -/
def State.vloadBytes (s : State) (d : VReg) (accs : List LaneAcc) : State :=
  accs.foldl (fun t a => t.setV a.member d (setByte (t.v a.member d) a.lane (s.byteAt a.loc))) s
/-- Storing vector bytes to places: the 8-byte halves of a vector, or the elements of a scatter, each by itself (R183,
R184). -/
def State.vstoreBytes (s : State) (i : Issue) (scatter : Bool) (b : VReg) (accs : List LaneAcc) : State :=
  let w := if scatter then 4 else 8
  s.storeAt i false scatter ((chunks (fun a => 16 * a.member + a.lane / w) accs).map (fun l =>
    l.map (fun a => { va := a.va, loc := a.loc, b := vbyte (s.v a.member b) a.lane })))

/-- Executing a vector command (R172 to R188). -/
def State.runVector (s : State) (fe : Bool) (i : Issue) : VCmd → State
  | .vint op l d a b m => s.vresultI d m l.bytes (fun t j i =>
      vintOp op (8 * l.bytes) (lane l.bytes i (t.v j a)) (lane l.bytes i (t.v j b)))
  | .vinti op l d a y m => s.vresultI d m l.bytes (fun t j i =>
      vintOp op (8 * l.bytes) (lane l.bytes i (t.v j a)) (y.toNat % 2 ^ (8 * l.bytes)))
  | .vun op l d a m => s.vresultI d m l.bytes (fun t j i => vunOp op (8 * l.bytes) (lane l.bytes i (t.v j a)))
  | .vfp op t rnd d a b m => s.vresult fe d m (FTy.bytes t) (fun s j i =>
      vfpOp op (FTy.fmt t) rnd (lane (FTy.bytes t) i (s.v j a)) (lane (FTy.bytes t) i (s.v j b)))
  | .vfpu op t rnd d a m => s.vresult fe d m (FTy.bytes t) (fun s j i =>
      vfpuOp op (FTy.fmt t) rnd (lane (FTy.bytes t) i (s.v j a)))
  | .vfma op t rnd d a b c m => s.vresult fe d m (FTy.bytes t) (fun s j i =>
      vfmaOp op (FTy.fmt t) rnd (lane (FTy.bytes t) i (s.v j a)) (lane (FTy.bytes t) i (s.v j b))
        (lane (FTy.bytes t) i (s.v j c)))
  | .vcmp cond t d a b m => s.perMember (fun s j => s.setM j d (ofLaneBits (VTy.bytes t) (fun i =>
      enabled (s.m j m) (VTy.bytes t) i &&
        vcmpOp cond t (lane (VTy.bytes t) i (s.v j a)) (lane (VTy.bytes t) i (s.v j b)))))
  | .vsel d a b m => s.perMember (fun s j => s.setV j d (ofLanes 1 (fun i =>
      if (s.m j m).getLsbD i then lane 1 i (s.v j a) else lane 1 i (s.v j b))))
  | .vperm l d a b m => s.vresultI d m l.bytes (fun t j i =>
      lane l.bytes (lane l.bytes i (t.v j b) % l.count) (t.v j a))
  | .vsplat l d src m =>
    let (x, s) := s.src src
    s.vresultI d m l.bytes (fun _ _ _ => x.toNat % 2 ^ (8 * l.bytes))
  | .vext l d a ix => s.setG d (BitVec.ofNat 64 (lane l.bytes ix (s.v 0 a)))
  | .vins l d src ix m =>
    let (x, s) := s.src src
    s.vresultI d m l.bytes (fun t j i => if i = ix then x.toNat % 2 ^ (8 * l.bytes) else lane l.bytes i (t.v j d))
  | .vcvt src dst part rnd inf d a sc ae m =>
    let (x, s) := match sc with
      | none => (none, s)
      | some v => let (x, s) := s.src v; (some x, s)
    s.perMember (fun s j =>
      let (mx, nan) := s.mxGet (ae.getD 0)
      let (v, fl, mx, nan) := vcvtMember src dst part rnd inf x ae (s.m j m) (s.v j a) (s.v j d) mx nan
      let s := (s.setV j d v).orFlags fe fl
      match ae with
      | some n => s.mxSet n mx nan
      | none => s)
  | .vload d accs => s.vloadBytes d accs
  | .vstore b accs => s.vstoreBytes i false b accs
  | .vgath d accs zs =>
    (zs.foldl (fun t a => t.setV a.member d (setByte (t.v a.member d) a.lane 0)) s).vloadBytes d accs
  | .vscat c accs => s.vstoreBytes i true c accs
  | .vhadd t rnd d a m =>
    let w := VTy.bytes t
    match VTy.fmt t with
    | some f => s.vresult fe d m w (fun s j i =>
        if i < 16 / w / 2 then fAdd f rnd (f.decode (lane w (2 * i) (s.v j a))) (f.decode (lane w (2 * i + 1) (s.v j a)))
        else { bits := 0, flags := 0 })
    | none => s.vresultI d m w (fun s j i =>
        if i < 16 / w / 2 then (lane w (2 * i) (s.v j a) + lane w (2 * i + 1) (s.v j a)) % 2 ^ (8 * w) else 0)
  | .mask op d a b => s.perMember (fun s j => s.setM j d (match op with
      | .and => s.m j a &&& s.m j b
      | .or => s.m j a ||| s.m j b
      | .xor => s.m j a ^^^ s.m j b
      | .not => ~~~(s.m j a)))
  | .mset d imm => s.perMember (fun s j => s.setM j d imm)
  | .vxg d a off m =>
    s.perMember (fun t j => t.setV j d (masked (t.m j m) 1 (t.v j d)
      (fun i => lane 1 i (s.v ((j + off + 4) % 4).toNat a))))
  | .vmov d a m => s.vresultI d m 1 (fun t j i => lane 1 i (t.v j a))
  | .vmovg d x y m =>
    let (x, s) := s.src x
    let (y, s) := s.src y
    s.vresultI d m 1 (fun _ _ i => if i < 8 then x.toNat / 2 ^ (8 * i) % 256 else y.toNat / 2 ^ (8 * (i - 8)) % 256)
  | _ => s

end Sys2Proof.Machine
end

