-- ==== Sys2Proof/Machine/Tiles.lean ====
section
/-! DEFINITION. Tiles, accumulators and the execution of matrix commands (R37, R50, R53, R54, R189 to R202). -/

namespace Sys2Proof.Machine

/-! ## Configuration and layout (R37, R53, R54) -/

/-- The element format of a TCFG code as a conversion type; none for a reserved code (R41). -/
def efmt (n : Nat) : Option CvtTy :=
  match n with
  | 0 => some .e4m3 | 1 => some .e5m2 | 2 => some .bf16 | 3 => some .f16 | 4 => some .f32 | 5 => some .i8
  | _ => none
/-- Element size of a format code. -/
def esize (n : Nat) : Nat := ((efmt n).map CvtTy.bytes).getD 1
/-- The fields of a TCFG word (R37). -/
def tcfgOf (x : BitVec 20) : TCfg :=
  let n := x.toNat
  { fmt := bits n 3 0, rows := bits n 9 4, colb := bits n 17 10,
    lay := match bits n 19 18 with | 0 => .row | 1 => .col | _ => .xor16 }
/-- Whether a column length allows XOR16 (R53). -/
def xorOk (colb : Nat) : Bool := colb == 16 || colb == 32 || colb == 64 || colb == 128
/-- Whether R37 and R53 accept a TCFG value. -/
def tcfgOk (x : Word) : Bool :=
  let n := x.toNat
  let rows := bits n 9 4
  let colb := bits n 17 10
  let lay := bits n 19 18
  n / 2 ^ 20 == 0 && bits n 3 0 ≤ 5 && lay ≤ 2 && 1 ≤ rows && rows ≤ 32 && 16 ≤ colb && colb ≤ 128 && colb % 16 == 0
    && rows * colb ≤ 2048 && (lay != 2 || xorOk colb)
/-- The configuration of a tile; none when unconfigured: TCFG holds 0, the one value it can hold that R37 does not accept
(R37). -/
def State.tile? (s : State) (t : TReg) : Option TCfg :=
  if tcfgOk (s.r.tcfg[t.toNat].setWidth 64) then some (tcfgOf s.r.tcfg[t.toNat]) else none
/-- Elements per row. -/
def TCfg.elems (c : TCfg) : Nat := c.colb / esize c.fmt
/-- The layout a command uses (R54). -/
def TCfg.use (c : TCfg) (l : Layout) : TCfg :=
  match l with
  | .row => { c with lay := .row } | .col => { c with lay := .col } | .xor16 => { c with lay := .xor16 } | .cfg => c
/-- Tile offset of byte b of element (i, e) (R53). -/
def TCfg.off (c : TCfg) (i e b : Nat) : Nat :=
  let es := esize c.fmt
  match c.lay with
  | .row => i * c.colb + e * es + b
  | .col => (e * c.rows + i) * es + b
  | .xor16 =>
    let j := e * es + b
    i * c.colb + 16 * ((j / 16) ^^^ (i % (c.colb / 16))) + j % 16
/-- Element (i, e) of a tile, as a number. -/
def TCfg.elem (c : TCfg) (t : Tile) (i e : Nat) : Nat :=
  leNat ((List.range (esize c.fmt)).map (fun b => t.bytes.get (c.off i e b)))
/-- A tile with element (i, e) written. -/
def TCfg.setElem (c : TCfg) (t : Tile) (i e x : Nat) : Tile :=
  { t with bytes := t.bytes.writeAt ((List.range (esize c.fmt)).map (fun b => c.off i e b) |>.zip
      (natBytes (esize c.fmt) x)) }

/-! ## Accumulators (R50, R196) -/

/-- Element (i, n) of an accumulator. -/
def accGet (c : Memory) (i n : Nat) : Nat := leNat (c.read (64 * i + 4 * n) 4)
/-- Writing element (i, n). -/
def accSet (c : Memory) (i n x : Nat) : Memory := c.write (64 * i + 4 * n) (natBytes 4 x)
/-- Every (i, n), row by row. -/
def accIdx : List (Nat × Nat) := (List.range 16).flatMap (fun i => (List.range 16).map (fun n => (i, n)))
/-- c[i] and t[i] of the running task. -/
def State.acc (s : State) (c : CReg) : Memory := s.r.c[c.toNat]
def State.setAcc (s : State) (c : CReg) (x : Memory) : State := { s with r := { s.r with c := s.r.c.set c.toNat x } }
def State.tileAt (s : State) (t : TReg) : Tile := s.r.t[t.toNat]
def State.setTile (s : State) (t : TReg) (x : Tile) : State := { s with r := { s.r with t := s.r.t.set t.toNat x } }

/-- One more term of a sum, as far as infinities and NaNs go: a NaN stays, and infinities of both signs give NaN with
NV (R43, R45, R50). -/
def specialAdd (acc : Option FVal × Flags) (x : FVal) : Option FVal × Flags :=
  match x, acc.1 with
  | .nan, _ => (some .nan, acc.2)
  | .inf n, none => (some (.inf n), acc.2)
  | .inf n, some (.inf m) => if n = m then acc else (some .nan, acc.2 ||| flagNV)
  | _, _ => acc
/-- An exact sum of exact products, its terms taken in order; a zero sum is +0 (R50).
(DEDUCED, log 36). -/
def exactSum (l : List (FVal × Flags)) : FVal × Flags :=
  let fl := l.foldl (fun acc x => acc ||| x.2) (0 : Flags)
  match l.foldl (fun acc x => specialAdd acc x.1) (none, fl) with
  | (some v, fl) => (v, fl)
  | (none, fl) =>
    let lo := l.foldl (fun (acc : Int) x => match x.1 with | .num _ m e => if m = 0 then acc else min acc e | _ => acc) 0
    let sum := l.foldl (fun (acc : Int) x => match x.1 with
      | .num n m e => if m = 0 then acc else acc + scaledInt n m e lo
      | _ => acc) 0
    (ofInt sum lo false, fl)
/-- Products of row i of a tile and row n of another over k from `from` (R50). -/
def products (ca cb : TCfg) (ta tb : Tile) (i n start cnt : Nat) : List (FVal × Flags) :=
  (List.range cnt).map (fun k =>
    (cvtValue ((efmt ca.fmt).getD .f32) (ca.elem ta i (start + k))).mul
      (cvtValue ((efmt cb.fmt).getD .f32) (cb.elem tb n (start + k))))
/-- One element of an MMA: the new accumulator element and the flags (R50, R195). -/
def mmaElem (ca cb : TCfg) (ta tb : Tile) (i n old : Nat) : FRes :=
  if ca.fmt = 5 then
    let s : Int := (List.range 128).foldl (fun (acc : Int) k =>
      acc + toSigned 8 (ca.elem ta i k) * toSigned 8 (cb.elem tb n k)) 0
    { bits := ofSigned 32 ((old : Int) + s), flags := 0 }
  else if ca.fmt = 2 then
    [0, 32].foldl (fun (acc : FRes) st =>
      let (v, fl) := exactSum (products ca cb ta tb i n st 32)
      let f := fmtF32.ofVal .rne v
      (add32 acc.bits f.bits).or (acc.flags ||| fl ||| f.flags)) { bits := old, flags := 0 }
  else
    let (v, fl) := exactSum (products ca cb ta tb i n 0 128)
    let f := fmtF32.ofVal .rne v
    let g := mul32 f.bits (ta.side.getD i one32).toNat
    let h := mul32 g.bits (tb.side.getD n one32).toNat
    (add32 old h.bits).or (fl ||| f.flags ||| g.flags ||| h.flags)
/-- A whole MMA (R50). -/
def mmaAcc (ca cb : TCfg) (ta tb : Tile) (c : Memory) : Memory × Flags :=
  accIdx.foldl (fun (acc : Memory × Flags) x =>
    let r := mmaElem ca cb ta tb x.1 x.2 (accGet c x.1 x.2)
    (accSet acc.1 x.1 x.2 r.bits, acc.2 ||| r.flags)) (c, 0)
/-- The element-wise operation of a drain at its receiver (R51, R198). -/
def drainAcc (mov i32 : Bool) (c inc : Memory) : Memory × Flags :=
  if mov then (inc, 0) else
  accIdx.foldl (fun (acc : Memory × Flags) x =>
    let a := accGet c x.1 x.2
    let b := accGet inc x.1 x.2
    let r : FRes := if i32 then { bits := (a + b) % 2 ^ 32, flags := 0 } else add32 a b
    (accSet acc.1 x.1 x.2 r.bits, acc.2 ||| r.flags)) (c, 0)

/-! ## Tile transfers (R191 to R193) -/

/-- Offsets of a row's bytes in memory order: byte x of row j (R192). -/
def TCfg.rowOffs (c : TCfg) (j : Nat) : List Nat :=
  (List.range c.colb).map (fun x => c.off j (x / esize c.fmt) (x % esize c.fmt))
/-- A tile with rows of bytes placed (R192). -/
def placeRows (c : TCfg) (t : Memory) : Nat → List (List Byte) → Memory
  | _, [] => t
  | j, row :: rest => placeRows c (t.writeAt ((c.rowOffs j).zip row)) (j + 1) rest
/-- The sidecar of a load (R192). -/
def State.fillSide (s : State) (old : Vector Word32 16) (f : SideFill) : Vector Word32 16 :=
  match f with
  | .keep => old
  | .ones => Vector.replicate 16 one32
  | .page es => Vector.ofFn (fun (i : Fin 16) => match es.getD i.val none with
      | some x => BitVec.ofNat 32 (leNat (s.bytesAt x.2))
      | none => one32)
/-- Executing a matrix command (R191 to R202). -/
def State.runMatrix (s : State) (fe : Bool) (i : Issue) : VCmd → State
  | .tld d cfg rows fill =>
    let t := s.tileAt d
    s.setTile d { bytes := placeRows cfg t.bytes 0 (rows.map (fun r => s.bytesAt r.2)), side := s.fillSide t.side fill }
  | .tst b cfg rows =>
    let t := s.tileAt b
    s.storeAt i false false (rows.zipIdx.flatMap (fun x =>
      chunks (fun y => y.va.toNat / 65536) (storeBytes x.1.1 x.1.2 ((cfg.rowOffs x.2).map (fun o => t.bytes.get o)))))
  | .tzero d cfg =>
    let t := s.tileAt d
    s.setTile d { bytes := t.bytes.clear 0 (cfg.rows * cfg.colb), side := Vector.replicate 16 one32 }
  | .mma d a b ca cb =>
    let (c, fl) := mmaAcc ca cb (s.tileAt a) (s.tileAt b) (s.acc d)
    (s.setAcc d c).orFlags fe fl
  | .czero d => s.setAcc d []
  | .cld d off => s.setAcc d ((Memory.write [] 0 (s.bufRead .c off 1024)))
  | .cst b off => s.bufWrite .c off ((s.acc b).read 0 1024)
  | .ccvt dst rnd inf cb d cfg a sc ae =>
    let (x, s) := match sc with
      | none => (none, s)
      | some v => let (x, s) := s.src v; (some x, s)
    let (mx, nan) := s.mxGet (ae.getD 0)
    let c := s.acc a
    let (t, fl, mx, nan) := accIdx.foldl (fun (acc : Tile × Flags × Nat × Bool) p =>
      let v := fmtF32.decode (accGet c p.1 p.2)
      let (mx, nan) := match ae with
        | some _ => amaxObserve v acc.2.2.1 acc.2.2.2
        | none => (acc.2.2.1, acc.2.2.2)
      let r := match x with
        | none => convert v dst rnd inf
        | some w => convertScaled v (w.toNat % 2 ^ 32) dst rnd inf
      (cfg.setElem acc.1 p.1 (16 * cb + p.2) r.bits, acc.2.1 ||| r.flags, mx, nan)) (s.tileAt d, 0, mx, nan)
    let s := (s.setTile d t).orFlags fe fl
    match ae with
    | some n => s.mxSet n mx nan
    | none => s
  | .ttr d a cd ca =>
    let src := s.tileAt a
    let idx := (List.range ca.rows).flatMap (fun i => (List.range ca.elems).map (fun e => (i, e)))
    let t := idx.foldl (fun t x => cd.setElem t x.2 x.1 (ca.elem src x.1 x.2)) (s.tileAt d)
    s.setTile d { t with side := src.side }
  | .mxr d a => s.setG d (s.r.mx[a.toNat].setWidth 64)
  | .mxclr d => { s with r := { s.r with mx := s.r.mx.set d.toNat 0,
                                         mxflag := s.r.mxflag &&& ~~~(1#4 <<< d.toNat) } }
  | _ => s

end Sys2Proof.Machine
end

