-- ==== Sys2Proof/Machine/Sketch.lean ====
section
/-! DEFINITION. Summary blocks: their checks, additions, merges and queries (R55 to R71, R203 to R207), as functions on
the bytes of a 4 KiB block. -/

namespace Sys2Proof.Machine

/-! ## The hash and the coin (R59, R60) -/

/-- mix(x) of R59. -/
def mix (x : Word) : Word :=
  let x := x ^^^ (x >>> 31)
  let x := x * 0x9E6C63D0676A9A99
  let x := x ^^^ (x >>> 29)
  let x := x * 0x8A5CD789635D2DFF
  x ^^^ (x >>> 32)

/-! ## Headers (R56) -/

/-- A summary block as its header fields and its body's parts. Only the part of its own type is used. -/
structure Sk where
  ty : SkTy
  nan : Bool
  csat : Bool
  seed : Word
  count : Nat
  /-- Q: compaction counters and levels of keys (R61). -/
  ccnt : List Nat
  levels : List (List Nat)
  /-- H: error floor and counters KEY, CNT, ERR in use (R65). -/
  hmin : Nat
  ctrs : List (Nat × Nat × Nat)
  /-- D: registers (R67). -/
  regs : List Nat
  /-- M: MEAN, M2, MIN, MAX (R69). -/
  mean : Nat
  m2 : Nat
  min : Nat
  max : Nat
  deriving DecidableEq, Repr

/-- A field of n bytes at an offset of a block. -/
def fld (b : List Byte) (off n : Nat) : Nat := leNat ((b.drop off).take n)
/-- FP32 keys in the total order of R61, as numbers. -/
def keyOrd (x : Nat) : Nat := if x < 2 ^ 31 then x + 2 ^ 31 else 2 ^ 32 - 1 - x
def keyLe (x y : Nat) : Bool := keyOrd x ≤ keyOrd y
/-- The type of a code. -/
def skTy (n : Nat) : Option SkTy :=
  match n with
  | 0 => some .q | 1 => some .h | 2 => some .d | 3 => some .m | _ => none
/-- Register j of a D body (R67). -/
def dReg (b : List Byte) (j : Nat) : Nat := fld b (64 + 3 * (j / 4)) 3 / 2 ^ (6 * (j % 4)) % 64
/-- The parts of a block of a type (R56, R61, R65, R67, R69). -/
def skParse (t : SkTy) (b : List Byte) : Sk where
  ty := t
  nan := bitOf (fld b 2 1) 0
  csat := bitOf (fld b 2 1) 2
  seed := BitVec.ofNat 64 (fld b 8 8)
  count := fld b 16 8
  ccnt := (List.range 8).map (fun h => fld b (24 + 2 * h) 2)
  levels := if t = .q then
      (List.range 8).map (fun h => (List.range (fld b (40 + h) 1)).map (fun i => fld b (64 + 256 * h + 4 * i) 4)) else []
  hmin := fld b 48 8
  ctrs := if t = .h then
      (List.range (fld b 4 2)).map (fun j => (fld b (64 + 12 * j) 4, fld b (68 + 12 * j) 4, fld b (72 + 12 * j) 4)) else []
  regs := if t = .d then (List.range 4096).map (dReg b) else []
  mean := if t = .m then fld b 64 4 else 0
  m2 := if t = .m then fld b 68 4 else 0
  min := if t = .m then fld b 72 4 else 0
  max := if t = .m then fld b 76 4 else 0
/-- Padding a byte list to n bytes. -/
def padTo (n : Nat) (l : List Byte) : List Byte := l ++ zeros (n - l.length)
/-- 24-bit groups of a D body: four registers each. -/
def dGroups : Nat → List Nat → List Byte
  | 0, _ => []
  | n + 1, l =>
    natBytes 3 (l.getD 0 0 + l.getD 1 0 * 2 ^ 6 + l.getD 2 0 * 2 ^ 12 + l.getD 3 0 * 2 ^ 18) ++ dGroups n (l.drop 4)
/-- The body of a block (R61, R65, R67, R69). -/
def Sk.body (k : Sk) : List Byte :=
  match k.ty with
  | .q => k.levels.flatMap (fun l => padTo 256 (l.flatMap (natBytes 4)))
  | .h => k.ctrs.flatMap (fun c => natBytes 4 c.1 ++ natBytes 4 c.2.1 ++ natBytes 4 c.2.2)
  | .d => dGroups 1024 k.regs
  | .m => natBytes 4 k.mean ++ natBytes 4 k.m2 ++ natBytes 4 k.min ++ natBytes 4 k.max
/-- The 4 KiB of a block; BUSY and TOGGLE are given. -/
def Sk.bytes (k : Sk) (busy : Bool) (tog : Byte) : List Byte :=
  let q := k.ty == .q
  padTo 4096 (natBytes 1 (SkTy.code k.ty) ++ natBytes 1 1 ++ natBytes 1 (b2n k.nan + 2 * b2n busy + 4 * b2n k.csat) ++ [tog]
    ++ natBytes 2 k.ctrs.length ++ natBytes 2 0 ++ natBytes 8 k.seed.toNat ++ natBytes 8 k.count
    ++ (if q then k.ccnt.flatMap (natBytes 2) else zeros 16)
    ++ (if q then k.levels.flatMap (fun l => natBytes 1 l.length) else zeros 8)
    ++ natBytes 8 k.hmin ++ natBytes 8 0 ++ k.body)
/-- The empty summary of a type (R55, R63, R65, R67, R69). -/
def Sk.empty (t : SkTy) (seed : Word) : Sk where
  ty := t
  nan := false
  csat := false
  seed := seed
  count := 0
  ccnt := List.replicate 8 0
  levels := List.replicate 8 []
  hmin := 0
  ctrs := []
  regs := if t = .d then List.replicate 4096 0 else []
  mean := 0
  m2 := 0
  min := if t = .m then 0x7F800000 else 0
  max := if t = .m then 0xFF800000 else 0

/-- Whether a list of keys is sorted by R61 and holds no NaN. -/
def keysOk : List Nat → Bool
  | [] => true
  | [x] => !isNan32 x
  | x :: y :: t => !isNan32 x && keyLe x y && keysOk (y :: t)
/-- Whether every byte from lo to hi − 1 of a block is zero. -/
def zeroFrom (b : List Byte) (lo hi : Nat) : Bool := ((b.drop lo).take (hi - lo)).all (fun x => x == 0)
/-- The checks of a block's header and body that R203 makes, TOGGLE and BUSY aside; `base` says that the block stands
at the pair base, where TOGGLE lies and BUSY is examined elsewhere. The body bytes above a type's layout are taken as
reserved for every type, as R67 says for D (DEDUCED, log 18). In the block at base + 4 KiB byte 3 is not checked (R56; DESIGN
CHOICE, log 41). -/
def skOk (t : SkTy) (b : List Byte) : Bool :=
  let ty := fld b 0 1
  let huse := fld b 4 2
  let lv := (List.range 8).map (fun h => fld b (40 + h) 1)
  ty == SkTy.code t && fld b 1 1 == 1 && fld b 2 1 / 8 == 0 && fld b 6 2 == 0 && fld b 56 8 == 0 &&
  match t with
  | .q => lv.all (· ≤ 63) && fld b 48 8 == 0 && huse == 0 &&
      (List.range 8).all (fun h => keysOk ((List.range (fld b (40 + h) 1)).map (fun i => fld b (64 + 256 * h + 4 * i) 4)) &&
        zeroFrom b (64 + 256 * h + 4 * fld b (40 + h) 1) (64 + 256 * h + 256)) && zeroFrom b 2112 4096
  | .h => zeroFrom b 24 48 && huse ≤ 255 && zeroFrom b (64 + 12 * huse) 4096
  | .d => zeroFrom b 24 48 && fld b 48 8 == 0 && huse == 0 && (List.range 4096).all (fun j => dReg b j ≤ 53) &&
      zeroFrom b 3136 4096
  | .m => zeroFrom b 24 48 && fld b 48 8 == 0 && huse == 0 && zeroFrom b 80 4096
/-- The TOGGLE byte of the block at a pair base is valid: bits 7:1 zero (R56). -/
def togOk (x : Byte) : Bool := x.toNat ≤ 1

/-! ## Q (R61 to R64) -/

/-- Keys at positions of a parity. -/
def everyOther : Bool → List Nat → List Nat
  | _, [] => []
  | true, x :: t => x :: everyOther false t
  | false, _ :: t => everyOther true t
/-- Halving a list until it holds fewer than 64 keys (R62, level 7). -/
def halve : Nat → List Nat → List Nat
  | 0, l => l
  | n + 1, l => if l.length ≥ 64 then halve n (everyOther true l) else l
/-- coin(S, h, r) (R60). -/
def skCoin (seed : Word) (h r ccnt : Nat) : Bool :=
  (mix (seed ^^^ BitVec.ofNat 64 (r * 2 ^ 32) ^^^ BitVec.ofNat 64 (h * 2 ^ 24) ^^^ BitVec.ofNat 64 ccnt)).getLsbD 0
/-- compact(S, h, L, r) (R62). -/
def Sk.compact (k : Sk) (h r : Nat) (l : List Nat) : Sk :=
  if h ≥ 7 then { k with levels := k.levels.set 7 (halve 10 l) }
  else
    let cc := k.ccnt.getD h 0
    let c := skCoin k.seed h r cc
    let n2 := 2 * (l.length / 2)
    let up := everyOther (!c) (l.take n2)
    let keep := if l.length % 2 = 1 then [l.getD (l.length - 1) 0] else []
    { k with ccnt := k.ccnt.set h ((cc + 1) % 65536),
             levels := (k.levels.set h keep).set (h + 1) (sortBy keyLe (k.levels.getD (h + 1) [] ++ up)) }
/-- Compacting every level that holds 64 keys or more, from level h up. -/
def Sk.compactFrom (k : Sk) (r : Nat) : List Nat → Sk
  | [] => k
  | h :: t =>
    let l := k.levels.getD h []
    Sk.compactFrom (if l.length ≥ 64 then k.compact h r l else k) r t
/-- q_add (R63). -/
def qAdd (k : Sk) (x r : Nat) : Sk :=
  if isNan32 x then { k with nan := true } else
  let k := { k with count := (k.count + 1) % 2 ^ 64, levels := k.levels.set 0 (insertBy keyLe x (k.levels.getD 0 [])) }
  k.compactFrom r (List.range 8)
/-- Merging the levels of two sketches, each level compacted as it fills (R63). -/
def qMergeLevels (d s : Sk) (r : Nat) : List Nat → Sk
  | [] => d
  | h :: t =>
    let l := sortBy keyLe (d.levels.getD h [] ++ s.levels.getD h [])
    let d := { d with levels := d.levels.set h l }
    qMergeLevels (if l.length ≥ 64 then d.compact h r l else d) s r t
/-- q_merge (R63). -/
def qMerge (d s : Sk) (r : Nat) : Sk :=
  qMergeLevels { d with count := (d.count + s.count) % 2 ^ 64, nan := d.nan || s.nan } s r (List.range 8)
/-- Running weights until t is reached (R64). -/
def pickKey (t : Nat) : List (Nat × Nat) → Nat → Option Nat
  | [], _ => none
  | (x, w) :: rest, acc => if acc + w ≥ t then some x else pickKey t rest (acc + w)
/-- The key at fraction φ (R64). -/
def qQuery (k : Sk) (phi : Nat) : Nat :=
  let keys := (k.levels.zipIdx).flatMap (fun l => l.1.map (fun x => (x, 2 ^ l.2)))
  let keys := sortBy (fun x y => keyOrd x.1 ≤ keyOrd y.1) keys
  let w := keys.foldl (fun acc x => acc + x.2) 0
  match fmtF32.decode phi with
  | .num neg m e =>
    if keys.isEmpty || (neg && m != 0) || (FVal.num false 1 0).ltNum (.num neg m e) then fmtF32.nan
    else
      let t := if e ≥ 0 then m * 2 ^ e.toNat * w else (m * w + 2 ^ (-e).toNat - 1) / 2 ^ (-e).toNat
      (pickKey (Nat.max 1 t) keys 0).getD fmtF32.nan
  | _ => fmtF32.nan

/-! ## H (R65, R66) -/

/-- Index of the first counter with the least CNT. -/
def leastIdx (l : List (Nat × Nat × Nat)) : Nat :=
  (l.zipIdx.foldl (fun (acc : Nat × Nat) x => if x.1.2.1 < acc.1 then (x.1.2.1, x.2) else acc) (2 ^ 40, 0)).2
/-- Saturating addition: the value, and whether it clamped (R65, R66). -/
def sat32 (x : Nat) : Nat × Bool := if x > 0xFFFFFFFF then (0xFFFFFFFF, true) else (x, false)
/-- h_add (R65). -/
def hAdd (k : Sk) (key : Nat) : Sk :=
  let k := { k with count := (k.count + 1) % 2 ^ 64 }
  match k.ctrs.findIdx? (fun c => c.1 = key) with
  | some j =>
    let c := k.ctrs.getD j (0, 0, 0)
    let (n, sa) := sat32 (c.2.1 + 1)
    { k with ctrs := k.ctrs.set j (key, n, c.2.2), csat := k.csat || sa }
  | none =>
    if k.ctrs.length < 255 then { k with ctrs := k.ctrs ++ [(key, 1, 0)] }
    else
      let j := leastIdx k.ctrs
      let c := k.ctrs.getD j (0, 0, 0)
      let (n, sa) := sat32 (c.2.1 + 1)
      { k with ctrs := k.ctrs.set j (key, n, c.2.1), csat := k.csat || sa, hmin := Nat.max k.hmin c.2.1 }
/-- The order of R66: CNT descending, then KEY ascending. -/
def ctrLe (x y : Nat × Nat × Nat) : Bool := y.2.1 < x.2.1 || (x.2.1 == y.2.1 && x.1 ≤ y.1)
/-- h_merge (R66). -/
def hMerge (d s : Sk) : Sk :=
  let look (l : List (Nat × Nat × Nat)) (key : Nat) : Nat × Nat := ((l.find? (fun c => c.1 = key)).map (·.2)).getD (0, 0)
  let keys := d.ctrs.map (·.1) ++ (s.ctrs.map (·.1)).filter (fun x => !(d.ctrs.map (·.1)).contains x)
  let u := keys.map (fun x =>
    let (cd, ed) := look d.ctrs x
    let (cs, es) := look s.ctrs x
    ((x, (sat32 (cd + cs)).1, (sat32 (ed + es)).1), (sat32 (cd + cs)).2 || (sat32 (ed + es)).2))
  let sa := u.any (·.2)
  let u := sortBy ctrLe (u.map (·.1))
  let m := if u.length > 255 then (u.getD 255 (0, 0, 0)).2.1 else 0
  let kept := (u.take 255).map (fun c => ((c.1, c.2.1, (sat32 (c.2.2 + m)).1), (sat32 (c.2.2 + m)).2))
  { d with csat := d.csat || s.csat || sa || kept.any (·.2), ctrs := kept.map (·.1),
           hmin := Nat.max (d.hmin + s.hmin) m % 2 ^ 64, count := (d.count + s.count) % 2 ^ 64 }

/-! ## D (R67, R68) -/

/-- Leading zeros of a 52-bit value. -/
def lz52 (w : Nat) : Nat := 51 - Nat.log2 w
/-- d_add (R67). -/
def dAdd (k : Sk) (key : Word) : Sk :=
  let h := (mix key).toNat
  let j := bits h 63 52
  let w := bits h 51 0
  let v := if w = 0 then 53 else 1 + lz52 w
  { k with regs := k.regs.set j (Nat.max (k.regs.getD j 0) v), count := (k.count + 1) % 2 ^ 64 }
/-- d_merge (R67). -/
def dMerge (d s : Sk) : Sk :=
  { d with regs := (d.regs.zip s.regs).map (fun x => Nat.max x.1 x.2), count := (d.count + s.count) % 2 ^ 64 }
/-- Rounding num/den to an integer, ties to even. -/
def roundDiv (num den : Nat) : Nat :=
  let q := num / den
  let r := num % den
  if 2 * r > den || (2 * r == den && q % 2 == 1) then q + 1 else q
/-- ln of num/den ≥ 1 in fixed point, by halving into [1, 2]. -/
def lnRatio (num den : Nat) : Nat :=
  let k := Nat.log2 (num / den)
  k * ln2Fix + lnFix num (den * 2 ^ k)
/-- The estimate of R68, exact over the reals, rounded once. Z is kept as a numerator over 2^53; alpha is
0.7213 / (1 + 1.079/4096) = 7213 × 4,096,000 / (10,000 × 4,097,079). -/
def dEstimate (regs : List Nat) : Nat :=
  let z := regs.foldl (fun acc r => acc + 2 ^ (53 - Nat.min r 53)) 0
  let v := (regs.filter (· = 0)).length
  let num := 7213 * 4096000 * 4096 * 4096 * 2 ^ 53
  let den := 10000 * 4097079 * z
  if v > 0 && num ≤ 10240 * den then roundDiv (4096 * lnRatio 4096 v) (2 ^ fixBits)
  else roundDiv num den

/-! ## M (R69, R70) -/

/-- m_add with the flags of its roundings: n is exact, and COUNT keeps its low 64 bits (R5, R69). -/
def mAdd (k : Sk) (x : Nat) : Sk × Flags :=
  if isNan32 x then ({ k with nan := true }, 0) else
  let n := k.count + 1
  let d := sub32 x k.mean
  let fn := natF32 n
  let q := div32 d.bits fn.bits
  let mean := add32 k.mean q.bits
  let e := sub32 x mean.bits
  let p := mul32 d.bits e.bits
  let m2 := add32 k.m2 p.bits
  ({ k with mean := mean.bits, m2 := m2.bits, min := if keyLe k.min x then k.min else x,
            max := if keyLe x k.max then k.max else x, count := n % 2 ^ 64 },
   d.flags ||| fn.flags ||| q.flags ||| mean.flags ||| e.flags ||| p.flags ||| m2.flags)
/-- m_merge with the flags of its roundings: n is exact, and COUNT keeps its low 64 bits (R5, R70). -/
def mMerge (d s : Sk) : Sk × Flags :=
  let d := { d with nan := d.nan || s.nan }
  if s.count = 0 then (d, 0)
  else if d.count = 0 then ({ d with count := s.count, mean := s.mean, m2 := s.m2, min := s.min, max := s.max }, 0)
  else
    let n := d.count + s.count
    let fn := natF32 n
    let fa := natF32 d.count
    let fb := natF32 s.count
    let dd := sub32 s.mean d.mean
    let r := div32 fb.bits fn.bits
    let p := mul32 dd.bits r.bits
    let mean := add32 d.mean p.bits
    let sq := mul32 dd.bits dd.bits
    let ab := mul32 fa.bits fb.bits
    let abn := div32 ab.bits fn.bits
    let t := mul32 sq.bits abn.bits
    let sm := add32 d.m2 s.m2
    let m2 := add32 sm.bits t.bits
    ({ d with count := n % 2 ^ 64, mean := mean.bits, m2 := m2.bits, min := if keyLe d.min s.min then d.min else s.min,
              max := if keyLe s.max d.max then d.max else s.max },
     fn.flags ||| fa.flags ||| fb.flags ||| dd.flags ||| r.flags ||| p.flags ||| mean.flags ||| sq.flags ||| ab.flags
       ||| abn.flags ||| t.flags ||| sm.flags ||| m2.flags)

/-! ## Any type -/

/-- Merging S into D (R63 to R71). -/
def skMerge (d s : Sk) (r : Nat) : Sk × Flags :=
  match d.ty with
  | .q => (qMerge d s r, 0)
  | .h => (hMerge d s, 0)
  | .d => (dMerge d s, 0)
  | .m => mMerge d s
/-- Adding one key (R63 to R69). -/
def skAdd1 (k : Sk) (x : Nat) (r : Nat) : Sk × Flags :=
  match k.ty with
  | .q => (qAdd k x r, 0)
  | .h => (hAdd k x, 0)
  | .d => (dAdd k (BitVec.ofNat 64 x), 0)
  | .m => mAdd k x
/-- Adding keys in order. -/
def skAddAll (k : Sk) (xs : List Nat) (r : Nat) : Sk × Flags :=
  xs.foldl (fun (acc : Sk × Flags) x => let (k, f) := skAdd1 acc.1 x r; (k, acc.2 ||| f)) (k, 0)
/-- Key size of a type (R205, R214). -/
def skKeySize : SkTy → Nat
  | .d => 8 | _ => 4
/-- Writing a summary back to a block of a C buffer, with the block's own TOGGLE and BUSY kept. -/
def writeSk (c : RankSt) (off : Nat) (k : Sk) : RankSt :=
  c.write .c off ((k.bytes (bitOf (c.c.get (off + 2)).toNat 1) (c.c.get (off + 3))).take 4096)
/-- The block at an offset. -/
def readSk (c : RankSt) (t : SkTy) (off : Nat) : Sk := skParse t (c.c.read off 4096)
/-- The pair is refreshed in this segment (R57). -/
def State.pairRefreshed (s : State) (off : Nat) : Bool := s.run.pairs.any (fun p => p.off == off && p.refreshed)
/-- The open pairs with one more whose working copy is in use. -/
def touchPair (ps : List OpenPair) (off : Nat) : List OpenPair :=
  if ps.any (fun p => p.off == off) then updWhere (fun p => p.off == off) (fun p => { p with refreshed := true }) ps
  else ps ++ [{ off := off, refreshed := true }]
/-- First modification of a pair in a segment: the working copy is refreshed (R57). -/
def State.refreshPair (s : State) (off : Nat) : State :=
  if s.pairRefreshed off then s else
  { s with rank := s.rank.refresh off, run := { s.run with pairs := touchPair s.run.pairs off } }
/-- Keys of a vector that a mask enables, in ascending lane order (R205). -/
def maskedKeys (w : Nat) (v : VWord) (m : BitVec 16) : List Nat :=
  (List.range (16 / w)).filterMap (fun i => if enabled m w i then some (lane w i v) else none)
/-- Executing a summary command (R204 to R206). -/
def State.runSummary (s : State) (fe : Bool) : VCmd → State
  | .skinit t off seed =>
    let k := Sk.empty t seed
    let block := (k.bytes false 0).take 4096
    let s := { s with rank := (s.rank.write .c off block).write .c (off + 4096) block }
    { s with run := { s.run with pairs := touchPair s.run.pairs off } }
  | .skadd t off b m rank =>
    let s := s.refreshPair off
    let w := workingOff s.rank.c off
    let (k, fl) := skAddAll (readSk s.rank t w) (maskedKeys (skKeySize t) (s.v 0 b) (s.m 0 m)) rank
    ({ s with rank := writeSk s.rank w k }).orFlags fe fl
  | .skmerge _ off buf soff rank =>
    match skTy (fld ((s.rank.buf buf).read soff 4096) 0 1) with
    | none => s
    | some t =>
      let src := skParse t ((s.rank.buf buf).read soff 4096)
      let s := s.refreshPair off
      let w := workingOff s.rank.c off
      let (k, fl) := skMerge (readSk s.rank t w) src rank
      ({ s with rank := writeSk s.rank w k }).orFlags fe fl
  | _ => s

end Sys2Proof.Machine
end

