-- ==== Sys2Proof/Machine/Streams.lean ====
section
/-! DEFINITION. The vector and matrix streams: dispatch, command queues, guards and queue registers (R15 to R18, R86,
R125 to R128, R227). A command executes as soon as it is dispatched unless its guard generation is unresolved, a queue
register it reads is empty, or an earlier command it depends on is held; then it waits in its stream's queue. -/

namespace Sys2Proof.Machine

/-! ## What a command reads and writes (R15, R126) -/

/-- State that one stream waits for another to read or write. -/
inductive Res where
  | g (i : Nat)
  | v (i : Nat)
  | m (i : Nat)
  | c (i : Nat)
  | mx (i : Nat)
  | mxflag (i : Nat)
  | fpflags
  | buf (b : Buf) (off n : Nat)
  | phys (pas : List Nat)
  deriving DecidableEq, Repr
/-- An amax register, when a command names one (R182). -/
def aeRes (ae : Option MxReg) : List Res := (ae.map (fun x => [Res.mx x.toNat])).getD []
/-- The same with its MXFLAG bit, which the command may set. -/
def aeSets (ae : Option MxReg) : List Res := (ae.map (fun x => [Res.mx x.toNat, .mxflag x.toNat])).getD []
/-- Every amax register: MXR and MXCLR follow every earlier converting command (R202). -/
def mxRes : List Res := [.mx 0, .mx 1, .mx 2, .mx 3]
/-- Every bit of MXFLAG. -/
def mxflagRes : List Res := [.mxflag 0, .mxflag 1, .mxflag 2, .mxflag 3]
/-- Two pieces of state overlap. g0 and m0 are constants. -/
def Res.hit : Res → Res → Bool
  | .g i, .g j => i == j && i != 0
  | .v i, .v j => i == j
  | .m i, .m j => i == j && i != 0
  | .c i, .c j => i == j
  | .mx i, .mx j => i == j
  | .mxflag i, .mxflag j => i == j
  | .fpflags, .fpflags => true
  | .buf b o n, .buf b' o' n' => b == b' && o < o' + n' && o' < o + n
  | .phys l, .phys l' => l.any (fun a => l'.contains a)
  | _, _ => false
/-- Some piece of one list overlaps some piece of another. -/
def hits (a b : List Res) : Bool := a.any (fun x => b.any (fun y => x.hit y))
/-- The pieces of places of bytes. -/
def locRes (ls : List Loc) : List Res :=
  .phys (locPas ls) :: ls.filterMap (fun l => match l with | .buf b off => some (.buf b off 1) | _ => none)
/-- The stream a command runs in (R189, R203). -/
def VCmd.stream : VCmd → Stream
  | .tld .. => .matrix | .tst .. => .matrix | .tzero .. => .matrix | .mma .. => .matrix | .czero .. => .matrix
  | .cld .. => .matrix | .cst .. => .matrix | .ccvt .. => .matrix | .ttr .. => .matrix | .mxr .. => .matrix
  | .mxclr .. => .matrix
  | _ => .vector
/-- Queue entries a scalar source takes. -/
def VSrc.takes : VSrc → List QReg
  | .val _ => []
  | .q r => [r]
/-- Queue registers a command reads, one entry each (R86). -/
def VCmd.takes : VCmd → List QReg
  | .vsplat _ _ src _ => src.takes
  | .vins _ _ src _ _ => src.takes
  | .vcvt _ _ _ _ _ _ _ sc _ _ => (sc.map VSrc.takes).getD []
  | .vmovg _ x y _ => x.takes ++ y.takes
  | .ccvt _ _ _ _ _ _ _ sc _ => (sc.map VSrc.takes).getD []
  | _ => []
/-- Whether a floating operation sets flags. -/
def fpRes (t : VTy) : List Res := if (VTy.fmt t).isSome then [.fpflags] else []
/-- Floating lane operations that set flags: all but min, max, abs and neg (R175). -/
def FpOp.flagged : FpOp → Bool
  | .min => false | .max => false | _ => true
def FpUnOp.flagged : FpUnOp → Bool
  | .abs => false | .neg => false | _ => true
/-- Whether a conversion can set a flag: a scaled one by its FP32 product; a direct one unless it is exact for every value
(R46, R47, R182). -/
def cvtFlagged (src dst : CvtTy) (scaled : Bool) : Bool :=
  scaled || (match src, dst with
    | .i32, .i32 => false
    | .i8, .i8 => false
    | .i8, .i32 => false
    | .i8, .f32 => false
    | .i8, .bf16 => false
    | .i8, .f16 => false
    | .e4m3, .f16 => false
    | .e4m3, .bf16 => false
    | .e5m2, .f16 => false
    | .e5m2, .bf16 => false
    | .e4m3, .e4m3 => false
    | .f16, .f16 => false
    | .bf16, .bf16 => false
    | .i32, .f32 => true
    | _, .f32 => false
    | _, _ => true)
/-- FPFLAGS when a conversion can set a flag. -/
def cvtRes (src dst : CvtTy) (sc : Option VSrc) : List Res := if cvtFlagged src dst sc.isSome then [.fpflags] else []
/-- FPFLAGS for the summary types whose additions and merges round: Q and M (R205, R206). -/
def skRes : SkTy → List Res
  | .q => [.fpflags] | .m => [.fpflags] | _ => []
/-- What a command writes, FPFLAGS as with FPCTL.FE = 1. -/
def VCmd.writes : VCmd → List Res
  | .vint _ _ d .. => [.v d.toNat]
  | .vinti _ _ d .. => [.v d.toNat]
  | .vun _ _ d .. => [.v d.toNat]
  | .vfp op _ _ d .. => .v d.toNat :: if op.flagged then [.fpflags] else []
  | .vfpu op _ _ d .. => .v d.toNat :: if op.flagged then [.fpflags] else []
  | .vfma _ _ _ d .. => [.v d.toNat, .fpflags]
  | .vcmp _ _ d .. => [.m d.toNat]
  | .vsel d .. => [.v d.toNat]
  | .vperm _ d .. => [.v d.toNat]
  | .vsplat _ d .. => [.v d.toNat]
  | .vext _ d .. => [.g d.toNat]
  | .vins _ d .. => [.v d.toNat]
  | .vcvt src dst _ _ _ d _ sc ae _ => .v d.toNat :: (cvtRes src dst sc ++ aeSets ae)
  | .vload d _ => [.v d.toNat]
  | .vstore b accs => locRes (VCmd.writeLocs (.vstore b accs))
  | .vgath d .. => [.v d.toNat]
  | .vscat c accs => locRes (VCmd.writeLocs (.vscat c accs))
  | .vhadd t _ d .. => .v d.toNat :: fpRes t
  | .mask _ d .. => [.m d.toNat]
  | .mset d _ => [.m d.toNat]
  | .vxg d .. => [.v d.toNat]
  | .vmov d .. => [.v d.toNat]
  | .vmovg d .. => [.v d.toNat]
  | .tld .. => []
  | .tst b cfg rows => locRes (VCmd.writeLocs (.tst b cfg rows))
  | .tzero .. => []
  | .mma d _ _ ca _ => .c d.toNat :: if ca.fmt = 5 then [] else [.fpflags]
  | .czero d => [.c d.toNat]
  | .cld d _ => [.c d.toNat]
  | .cst _ off => [.buf .c off 1024]
  | .ccvt dst _ _ _ _ _ _ sc ae => cvtRes .f32 dst sc ++ aeSets ae
  | .ttr .. => []
  | .mxr d _ => [.g d.toNat]
  | .mxclr d => [.mx d.toNat, .mxflag d.toNat]
  | .skinit _ off _ => [.buf .c off 8192]
  | .skadd t off .. => .buf .c off 8192 :: skRes t
  | .skmerge t off .. => .buf .c off 8192 :: skRes t
/-- What a command reads when it executes. -/
def VCmd.reads : VCmd → List Res
  | .vint _ _ _ a b m => [.v a.toNat, .v b.toNat, .m m.toNat]
  | .vinti _ _ _ a _ m => [.v a.toNat, .m m.toNat]
  | .vun _ _ _ a m => [.v a.toNat, .m m.toNat]
  | .vfp _ _ _ _ a b m => [.v a.toNat, .v b.toNat, .m m.toNat]
  | .vfpu _ _ _ _ a m => [.v a.toNat, .m m.toNat]
  | .vfma _ _ _ _ a b c m => [.v a.toNat, .v b.toNat, .v c.toNat, .m m.toNat]
  | .vcmp _ _ _ a b m => [.v a.toNat, .v b.toNat, .m m.toNat]
  | .vsel _ a b m => [.v a.toNat, .v b.toNat, .m m.toNat]
  | .vperm _ _ a b m => [.v a.toNat, .v b.toNat, .m m.toNat]
  | .vsplat _ _ _ m => [.m m.toNat]
  | .vext _ _ a _ => [.v a.toNat]
  | .vins _ _ _ _ m => [.m m.toNat]
  | .vcvt _ _ _ _ _ _ a _ ae m => .v a.toNat :: .m m.toNat :: aeRes ae
  | .vload d accs => locRes (VCmd.readLocs (.vload d accs))
  | .vstore b _ => [.v b.toNat]
  | .vgath d accs zs => locRes (VCmd.readLocs (.vgath d accs zs))
  | .vscat c _ => [.v c.toNat]
  | .vhadd _ _ _ a m => [.v a.toNat, .m m.toNat]
  | .mask _ _ a b => [.m a.toNat, .m b.toNat]
  | .mset .. => []
  | .vxg _ a _ m => [.v a.toNat, .m m.toNat]
  | .vmov _ a m => [.v a.toNat, .m m.toNat]
  | .vmovg _ _ _ m => [.m m.toNat]
  | .tld d cfg rows fill => locRes (VCmd.readLocs (.tld d cfg rows fill))
  | .tst .. => []
  | .tzero .. => []
  | .mma d .. => [.c d.toNat]
  | .czero _ => []
  | .cld _ off => [.buf .c off 1024]
  | .cst b _ => [.c b.toNat]
  | .ccvt _ _ _ _ _ _ a _ ae => .c a.toNat :: aeRes ae
  | .ttr .. => []
  | .mxr .. => mxRes
  | .mxclr _ => mxRes
  | .skinit .. => []
  | .skadd _ off b m _ => [.buf .c off 8192, .v b.toNat, .m m.toNat]
  | .skmerge _ off b soff _ => [.buf .c off 8192, .buf b soff 4096]
/-- The bytes a command consumes, in order, each with the TRAPADDR that names it (R361, R366). -/
def VCmd.consumes : VCmd → List (Word × Loc)
  | .vload _ accs => accs.map (fun a => (a.va, a.loc))
  | .vgath _ accs _ => accs.map (fun a => (a.va, a.loc))
  | .tld _ _ rows fill =>
    let at_ (x : Word × List Loc) := (x.2.zipIdx).map (fun l => (x.1 + BitVec.ofNat 64 l.2, l.1))
    rows.flatMap at_ ++ (match fill with
      | .page es => es.flatMap (fun e => (e.map at_).getD [])
      | _ => [])
  | .cld _ off => (List.range 1024).map (fun i => (typedAddr .c (BitVec.ofNat 64 (off + i)), .buf .c (off + i)))
  | .skadd _ off .. => (List.range 8192).map (fun i => (typedAddr .c (BitVec.ofNat 64 (off + i)), .buf .c (off + i)))
  | .skmerge _ off b soff _ =>
    (List.range 8192).map (fun i => (typedAddr .c (BitVec.ofNat 64 (off + i)), .buf .c (off + i))) ++
      (List.range 4096).map (fun i => (typedAddr b (BitVec.ofNat 64 (soff + i)), .buf b (soff + i)))
  | _ => []

/-! ## Waiting for held commands (R126) -/

/-- What a queued command writes: no FPFLAGS when it runs under FE = 0 (R36). -/
def QEntry.writes (e : QEntry) : List Res := if e.fe then e.cmd.writes else e.cmd.writes.filter (· ≠ .fpflags)
/-- Whether an access of the scalar stream waits for a held command: it reads or replaces what the command writes, or
replaces what the command reads (R15, R126).
(DEDUCED, log 15). -/
def State.waitsFor (s : State) (reads writes : List Res) : Bool :=
  s.run.held.any (fun e => hits e.writes (reads ++ writes) || hits e.cmd.reads writes)
/-- The oldest held command in program order. -/
def oldest : List QEntry → Option QEntry
  | [] => none
  | e :: es =>
    match oldest es with
    | none => some e
    | some o => if o.seq < e.seq then some o else some e
/-- Whether queue registers hold the entries a command takes (R16). -/
def State.fed (s : State) (c : VCmd) : Bool := c.takes.all (fun q => c.takes.count q ≤ s.r.q[q.toNat].length)
/-- Whether two commands read one byte of global memory: they do so in program order (R31). -/
def QEntry.rereads (o e : QEntry) : Bool := (locPas o.cmd.readLocs).any (fun a => (locPas e.cmd.readLocs).contains a)
/-- Whether nothing but the memory system holds a command at the head of its queue: its guard is resolved, its queue
entries are there, and no earlier command of the other stream that it depends on is held (R15, R18, R31, R86). FPFLAGS
and MXFLAG bits only accumulate. -/
def State.released (s : State) (e : QEntry) (others : List QEntry) : Bool :=
  e.guard.isNone && s.fed e.cmd && others.all (fun o => e.seq < o.seq ||
    !(hits o.writes (e.cmd.reads ++ e.writes.filter (· ≠ .fpflags)) || hits o.cmd.reads e.writes || o.rereads e))
/-- Whether a posted access must be performed before a command reads: both are SO accesses, or it is a load or an atomic
of a byte that the command reads (R31, R133, R136). Earlier posted stores are forwarded. -/
def Flight.holdsCmd (f : Flight) (e : QEntry) : Bool :=
  !f.performed && f.by_.ord ≤ e.seq && ((f.seq && e.cmd.readLocs.any Loc.so) ||
    (f.op.reads && f.op.pas.any (fun a => (locPas e.cmd.readLocs).contains a)))
/-- Whether a command at the head of its queue, though released, waits for another held command: one that comes before it
in SO order, or one that a posted access before it waits for (R265). -/
def State.waitsHeld (s : State) (e : QEntry) : Bool :=
  (e.cmd.readLocs.any Loc.so && s.run.held.any (fun o => o.cmd.so && o.seq < e.seq)) ||
    s.run.flight.any (fun f => f.holdsCmd e && s.run.stuck f)
/-- Whether some held command waits for the memory system alone: the streams will go on by themselves. -/
def State.draining (s : State) : Bool :=
  (s.run.vq.head?.any (fun e => s.released e s.run.mq && !s.waitsHeld e)) ||
    s.run.mq.head?.any (fun e => s.released e s.run.vq && !s.waitsHeld e)
/-- STREAM_DEADLOCK at the oldest blocked instruction: a held command, or the scalar stream's own (R17, R126). While a
held command waits for the memory system alone, the scalar stream only stalls. -/
def State.deadlock (s : State) : State :=
  if s.draining then s
  else s.trapAt { trap := .streamDeadlock, addr := 0 } (((oldest s.run.held).map (fun e => e.pc)).getD s.r.pc)
/-- The body of an instruction that reads or writes state: when it waits for a held command it stalls or deadlocks. -/
def State.needs (s : State) (reads writes : List Res) (k : State → State) : State :=
  if s.waitsFor reads writes then s.deadlock else k s

/-! ## Queue register roles (R16) -/

/-- Whether a stream may read a queue register. -/
def State.mayRead (s : State) (st : Stream) (q : QReg) : Bool :=
  match s.run.qrole[q.toNat].reader with
  | none => true
  | some x => x == st
/-- Whether a stream may write a queue register. -/
def State.mayWrite (s : State) (st : Stream) (q : QReg) : Bool :=
  match s.run.qrole[q.toNat].writer with
  | none => true
  | some x => x == st
/-- Fixing a queue register's reader. -/
def State.fixReader (s : State) (st : Stream) (q : QReg) : State :=
  { s with run := { s.run with qrole := s.run.qrole.set q.toNat { s.run.qrole[q.toNat] with reader := some st } } }
/-- Fixing a queue register's writer. -/
def State.fixWriter (s : State) (st : Stream) (q : QReg) : State :=
  { s with run := { s.run with qrole := s.run.qrole.set q.toNat { s.run.qrole[q.toNat] with writer := some st } } }

/-! ## Execution -/

/-- The runs of virtual addresses of global bytes that a command accesses, and whether it stores to them. -/
def VCmd.pages (c : VCmd) : List (Word × Nat × Bool) :=
  let isPhys (l : Loc) : Bool := match l with | .phys .. => true | _ => false
  let accs (w : Bool) (l : List LaneAcc) : List (Word × Nat × Bool) :=
    (l.filter (fun a => isPhys a.loc)).map (fun a => (a.va, 1, w))
  let rows (w : Bool) (l : List (Word × List Loc)) : List (Word × Nat × Bool) :=
    (l.filter (fun r => r.2.any isPhys)).map (fun r => (r.1, r.2.length, w))
  match c with
  | .vload _ l => accs false l
  | .vgath _ l _ => accs false l
  | .vstore _ l => accs true l
  | .vscat _ l => accs true l
  | .tld _ _ l fill => rows false l ++ (match fill with
      | .page es => rows false (es.filterMap (fun e => e))
      | _ => [])
  | .tst _ _ l => rows true l
  | _ => []
/-- Touching the pages that a command accesses, when it executes: a discarded one has no effect (R18, R172, R337). -/
def State.touchCmd (s : State) (c : VCmd) : State := c.pages.foldl (fun s x => s.touchAll x.1.toNat x.2.1 x.2.2) s
/-- Executing a command. -/
def State.perform (s : State) (e : QEntry) : State :=
  let s := s.touchCmd e.cmd
  match e.cmd with
  | .skinit .. => s.runSummary e.fe e.cmd
  | .skadd .. => s.runSummary e.fe e.cmd
  | .skmerge .. => s.runSummary e.fe e.cmd
  | _ =>
    if e.cmd.stream = .matrix then s.runMatrix e.fe (s.issuer e.pc e.seq [5]) e.cmd
    else s.runVector e.fe (s.issuer e.pc e.seq [1]) e.cmd
/-- Whether the memory system lets a command read now: on an SO page every earlier SO access of the task has been
performed, every earlier load or atomic of its bytes has been performed (R31, R133, R136), and no byte waits for a link
that is down. -/
def State.memReady (s : State) (e : QEntry) : Bool :=
  let ls := e.cmd.readLocs
  !(ls.any Loc.so && s.soAhead e.seq) && !(locPas ls).any s.waitsLink && s.run.flight.all (fun f => !f.holdsCmd e)
/-- Whether a command at the head of its queue may execute. -/
def State.mayRun (s : State) (e : QEntry) (others : List QEntry) : Bool := s.released e others && s.memReady e
/-- What running the queues comes to: a state, or a trap at a command's instruction. -/
inductive Pumped where
  | ok (s : State)
  | stop (s : State) (t : TrapAt) (pc : Word)
/-- The first poisoned byte a command consumes, with its place. -/
def State.cmdPoison (s : State) (c : VCmd) : Option (Word × Loc) := c.consumes.find? (fun x => s.poisoned x.2)
/-- Executing the heads of the queues while they may run. -/
def State.pump : Nat → State → Pumped
  | 0, s => .ok s
  | n + 1, s =>
    let go (e : QEntry) (s : State) : Pumped :=
      match s.cmdPoison e.cmd with
      | some x => .stop (s.consumed x.2) { trap := .poison, addr := x.1 } e.pc
      | none => State.pump n (s.perform e)
    let matrix : Pumped :=
      match s.run.mq with
      | [] => .ok s
      | e :: rest => if s.mayRun e s.run.vq then go e { s with run := { s.run with mq := rest } } else .ok s
    match s.run.vq with
    | [] => matrix
    | e :: rest => if s.mayRun e s.run.mq then go e { s with run := { s.run with vq := rest } } else matrix
/-- Running the queues after something that may release a command, and going on. -/
def State.pumped (s : State) (k : State → State) : State :=
  match s.pump s.run.held.length with
  | .ok s => k s
  | .stop s t pc => s.trapAt t pc

/-! ## Dispatch (R15, R18, R227) -/

/-- Capacity of a stream's command queue (R227). -/
def queueCap : Nat := 16
/-- Binding a guarded command to its slot's current generation (R18). -/
def State.bindGuard (s : State) (k : Option KReg) : State :=
  match k with
  | none => s
  | some k => { s with r := { s.r with k := s.r.k.set k.toNat { s.r.k[k.toNat] with bound := true } } }
/-- The generation a guarded command binds to. -/
def State.guardOf (s : State) (k : Option KReg) : Option (KReg × BitVec 16) := k.map (fun k => (k, s.r.k[k.toNat].gen))
/-- A command behind its stream's queue. -/
def State.enqueue (s : State) (e : QEntry) : State :=
  if e.cmd.stream = .matrix then { s with run := { s.run with mq := s.run.mq ++ [e] } }
  else { s with run := { s.run with vq := s.run.vq ++ [e] } }
/-- Dispatching a checked command and retiring its instruction of `len` bytes. -/
def State.dispatch (s : State) (h : Hdr) (len : Nat) (cmd : VCmd) : State :=
  if !cmd.takes.all (fun q => s.mayRead cmd.stream q) then s.trap .illegal
  else
    let s := cmd.takes.foldl (fun s q => s.fixReader cmd.stream q) s
    let q := if cmd.stream = .matrix then s.run.mq else s.run.vq
    if queueCap ≤ q.length then s.deadlock
    else
      let e : QEntry := { seq := s.fresh, cmd := cmd, pc := s.r.pc, guard := s.guardOf h.guard, fe := s.r.fe }
      ((s.bindGuard h.guard).enqueue e).pumped (fun s =>
        (if s.run.held.any (fun x => x.seq == e.seq) then s.bump else s).retire len)
/-- A vector, matrix or summary instruction: a false qualifier retires it with no dispatch (R91); its checks are made
at dispatch whether its guard later lets it execute or not (R18, R189), and before a full queue stalls it or deadlocks (R227;
DESIGN CHOICE, log 41). -/
def commandStep (h : Hdr) (len : Nat) (check : State → Option TrapAt) (cmd : State → VCmd) (s : State) :
    Host.Outcome State Fault Refusal :=
  checkedStep h len (fun s =>
    match check s with
    | some t => s.accessTrap t s.r.pc
    | none => s.dispatch h len (cmd s)) s
/-- A command with no check beyond its decoding. -/
def plainStep (h : Hdr) (cmd : State → VCmd) (s : State) : Host.Outcome State Fault Refusal :=
  commandStep h 8 (fun _ => none) cmd s
/-- The value of a scalar source at dispatch; a queue register is read when the command executes (R86, R172). -/
def State.vsrc (s : State) (x : ScalarSrc) : VSrc :=
  match x with
  | .g r => .val (s.g r)
  | .q r => .q r
/-- A scale operand: none when b = 0 and QS = 0 (R182). -/
def State.scaleSrc (s : State) (x : ScalarSrc) : Option VSrc :=
  match x with
  | .g r => if r = 0 then none else some (.val (s.g r))
  | .q r => some (.q r)

/-! ## Guards (R18, R19, R125) -/

/-- Resolving a guard slot's current generation for the vector and matrix streams, and advancing it: commands bound to
it are released or discarded. -/
def State.resolveGuard (s : State) (k : KReg) (v : Bool) : State :=
  let gen := s.r.k[k.toNat].gen
  let f (q : List QEntry) : List QEntry :=
    if v then q.map (fun e => if e.guard = some (k, gen) then { e with guard := none } else e)
    else q.filter (fun e => e.guard ≠ some (k, gen))
  { s with
    run := { s.run with vq := f s.run.vq, mq := f s.run.mq }
    r := { s.r with k := s.r.k.set k.toNat { gen := gen + 1, bound := false } } }

/-! ## Queue moves (R128) -/

/-- Appending to a queue register. -/
def State.putQ (s : State) (q : QReg) (x : Word) : State :=
  { s with r := { s.r with q := s.r.q.set q.toNat (s.r.q[q.toNat] ++ [x]) } }
/-- QPUT (R128): a full queue register blocks the scalar stream for good, because every command that could take an
entry is held. -/
def execQput (h : Hdr) (q : QReg) (a : GReg) (s : State) : Host.Outcome State Fault Refusal :=
  checkedStep h 8 (fun s =>
    if !s.mayWrite .scalar q then s.trap .illegal
    else if 8 ≤ s.r.q[q.toNat].length then s.deadlock
    else ((s.fixWriter .scalar q).putQ q (s.g a)).pumped (fun s => s.retire 8)) s
/-- QGET (R128). -/
def execQget (h : Hdr) (d : GReg) (q : QReg) (s : State) : Host.Outcome State Fault Refusal :=
  checkedStep h 8 (fun s =>
    if !s.mayRead .scalar q then s.trap .illegal
    else match s.r.q[q.toNat] with
      | [] => s.deadlock
      | x :: rest =>
        let s := s.fixReader .scalar q
        (({ s with r := { s.r with q := s.r.q.set q.toNat rest } }).setG d x).retire 8) s

end Sys2Proof.Machine
end

