-- ==== Sys2Proof/Machine/VectorUnit.lean ====
section
/-! DEFINITION. Vector instructions (R173 to R188): what each dispatches, its checks, and the gang of a quad. The lane
results are in Lanes.lean. -/

namespace Sys2Proof.Machine

/-! ## Forms -/

/-- v[d] := op v[a] v[b], lane by lane (R173). -/
def vint2 (op : VIntOp) (h : Hdr) (l : Lane) (d a b : VReg) (m : MReg) (s : State) : Host.Outcome State Fault Refusal :=
  plainStep h (fun _ => .vint op l d a b m) s
/-- v[d] := op v[a] immediate (R174). -/
def vintImm (op : VIntOp) (h : Hdr) (l : Lane) (d a : VReg) (imm : BitVec 16) (m : MReg) (s : State) :
    Host.Outcome State Fault Refusal :=
  plainStep h (fun _ => .vinti op l d a (imm16 imm) m) s
/-- A floating operation with two sources (R175). -/
def vfp2 (op : FpOp) (h : Hdr) (t : FTy) (rnd : Rnd) (d a b : VReg) (m : MReg) (s : State) :
    Host.Outcome State Fault Refusal :=
  plainStep h (fun _ => .vfp op t rnd d a b m) s
/-- A floating operation with one source (R175). -/
def vfp1 (op : FpUnOp) (h : Hdr) (t : FTy) (rnd : Rnd) (d a : VReg) (m : MReg) (s : State) :
    Host.Outcome State Fault Refusal :=
  plainStep h (fun _ => .vfpu op t rnd d a m) s
/-- A fused multiply-add (R176). -/
def vfma3 (op : FmaOp) (h : Hdr) (t : FTy) (rnd : Rnd) (d a b c : VReg) (m : MReg) (s : State) :
    Host.Outcome State Fault Refusal :=
  plainStep h (fun _ => .vfma op t rnd d a b c m) s

/-! ## Vector memory access (R183, R184, R187) -/

/-- The enabled bytes of an access: member and byte of the vector, members in order (R183, R187). -/
def State.enabledBytes (s : State) (m : MReg) : List (Nat × Nat) :=
  s.members.flatMap (fun j => ((List.range 16).filter (fun i => (s.m j m).getLsbD i)).map (fun i => (j, i)))
/-- The address or offset of a byte: member j accesses ea + 16j (R187).
(DEDUCED, log 14). -/
def vaddr (ea : Word) (j i : Nat) : Word := ea + BitVec.ofNat 64 (16 * j + i)
/-- The check of one enabled byte of a global access; TRAPADDR is ea itself when its bits 63:52 are nonzero. -/
def State.vbyteTrap (s : State) (ea : Word) (j i : Nat) (need : Need) : Option TrapAt :=
  let e := ea + BitVec.ofNat 64 (16 * j)
  if e.toNat / 2 ^ 52 ≠ 0 then some { trap := .pageNp, addr := e }
  else s.globalTrap (vaddr ea j i) 1 need
/-- The first member that accesses anything has the address that a misaligned access reports (R187). -/
def memberEa (ea : Word) (bs : List (Nat × Nat)) : Word := vaddr ea ((bs.head?.map (fun x => x.1)).getD 0) 0
/-- The check of VLD and VST (R183, R187).
(DEDUCED, log 14). -/
def State.vglobalTrap (s : State) (ea : Word) (m : MReg) (need : Need) : Option TrapAt :=
  let bs := s.enabledBytes m
  if bs.isEmpty then none
  else if ea.toNat % 16 ≠ 0 then some { trap := .align, addr := memberEa ea bs }
  else firstTrap (bs.filterMap (fun x => s.vbyteTrap ea x.1 x.2 need))
/-- The check of VLDS and VSTS (R26, R183). -/
def State.vtypedTrap (s : State) (b : Buf) (ea : Word) (m : MReg) : Option TrapAt :=
  let bs := s.enabledBytes m
  if bs.isEmpty then none
  else if ea.toNat % 16 ≠ 0 then some { trap := .align, addr := typedAddr b (memberEa ea bs) }
  else firstTrap (bs.filterMap (fun x => s.bufTrap b (vaddr ea x.1 x.2) 1 1))
/-- The enabled bytes of a checked global access with their places. -/
def State.vglobalAccs (s : State) (ea : Word) (m : MReg) : List LaneAcc :=
  (s.enabledBytes m).map (fun x =>
    let va := vaddr ea x.1 x.2
    { member := x.1, lane := x.2, loc := s.locOf va.toNat, va := va })
/-- The enabled bytes of a checked typed access. -/
def State.vtypedAccs (s : State) (b : Buf) (ea : Word) (m : MReg) : List LaneAcc :=
  (s.enabledBytes m).map (fun x =>
    let off := vaddr ea x.1 x.2
    { member := x.1, lane := x.2, loc := .buf b off.toNat, va := typedAddr b off })
/-- A vector access: it waits for the mask, is checked and dispatches its command. -/
def vmemStep (h : Hdr) (m : MReg) (check : State → Option TrapAt) (cmd : State → VCmd) (s : State) :
    Host.Outcome State Fault Refusal :=
  checkedStep h 12 (fun s => s.needs [.m m.toNat] [] (fun s =>
    match check s with
    | some t => s.accessTrap t s.r.pc
    | none => s.dispatch h 12 (cmd s))) s

/-- The buffer of a gather or scatter space; none for global addresses. -/
def spaceBuf : Space → Option Buf
  | .global => none | .w => some .w | .a => some .a | .c => some .c
/-- The enabled elements: member, element (R184). -/
def State.enabledElems (s : State) (m : MReg) : List (Nat × Nat) :=
  s.members.flatMap (fun j => ((List.range 4).filter (fun i => (s.m j m).getLsbD (4 * i))).map (fun i => (j, i)))
/-- ea(i) of a member's element (R184, R187). -/
def State.elemEa (s : State) (base : Word) (b : VReg) (w : Nat) (x : Nat × Nat) : Word :=
  base + (BitVec.ofNat 32 (lane 4 x.2 (s.v x.1 b))).signExtend 64 * BitVec.ofNat 64 w
/-- The check of one aligned element: R130 or R26. -/
def State.elemTrap (s : State) (sp : Space) (ea : Word) (w : Nat) (need : Need) : Option TrapAt :=
  match spaceBuf sp with
  | none => s.globalTrap ea w need
  | some b => s.bufTrap b ea w 1
/-- The check of a gather or scatter: the alignment of every element, then R130 or R26 of every element; the code is the
first of R39 among them, at the first element that fails with it (R39, R184).
(DEDUCED, log 14). -/
def State.gsTrap (s : State) (sp : Space) (base : Word) (b : VReg) (w : Nat) (m : MReg) (need : Need) : Option TrapAt :=
  let eas := (s.enabledElems m).map (s.elemEa base b w)
  match eas.find? (fun ea => ea.toNat % w ≠ 0) with
  | some ea => some { trap := .align, addr := match spaceBuf sp with | none => ea | some bf => typedAddr bf ea }
  | none => firstTrap (eas.filterMap (fun ea => s.elemTrap sp ea w need))
/-- The bytes of checked elements with their places. -/
def State.gsAccs (s : State) (sp : Space) (base : Word) (b : VReg) (w : Nat) (m : MReg) : List LaneAcc :=
  (s.enabledElems m).flatMap (fun x =>
    let ea := s.elemEa base b w x
    (List.range w).map (fun k =>
      let a := ea + BitVec.ofNat 64 k
      match spaceBuf sp with
      | none => { member := x.1, lane := 4 * x.2 + k, loc := s.locOf a.toNat, va := a }
      | some bf => { member := x.1, lane := 4 * x.2 + k, loc := .buf bf a.toNat, va := typedAddr bf a }))
/-- The bytes above a gathered element's own, which become zero. -/
def State.gsZeros (s : State) (w : Nat) (m : MReg) : List LaneAcc :=
  (s.enabledElems m).flatMap (fun x => (List.range (4 - w)).map (fun k =>
    { member := x.1, lane := 4 * x.2 + w + k, loc := .sram 0, va := 0 }))
/-- A gather or scatter waits for its offsets, its mask and what else it names; then check and dispatch. -/
def gsStep (h : Hdr) (waits : List Res) (sp : Space) (l : Lane) (a : GReg) (b : VReg) (off : BitVec 32) (m : MReg)
    (need : Need) (cmd : State → Word → VCmd) (s : State) : Host.Outcome State Fault Refusal :=
  checkedStep h 12 (fun s => s.needs (.v b.toNat :: .m m.toNat :: waits) [] (fun s =>
    let base := s.ea a off
    match s.gsTrap sp base b l.bytes m need with
    | some t => s.accessTrap t s.r.pc
    | none => s.dispatch h 12 (cmd s base))) s

/-! ## Integer lanes (R173, R174) -/


/-- VADD (R173). -/
def execVadd (h : Hdr) (l : Lane) (d a b : VReg) (m : MReg) (s : State) : Host.Outcome State Fault Refusal :=
  vint2 .add h l d a b m s

/-- VSUB (R173). -/
def execVsub (h : Hdr) (l : Lane) (d a b : VReg) (m : MReg) (s : State) : Host.Outcome State Fault Refusal :=
  vint2 .sub h l d a b m s

/-- VMUL (R173). -/
def execVmul (h : Hdr) (l : Lane) (d a b : VReg) (m : MReg) (s : State) : Host.Outcome State Fault Refusal :=
  vint2 .mul h l d a b m s

/-- VMULH (R173). -/
def execVmulh (h : Hdr) (l : Lane) (d a b : VReg) (m : MReg) (s : State) : Host.Outcome State Fault Refusal :=
  vint2 .mulh h l d a b m s

/-- VMIN (R173). -/
def execVmin (h : Hdr) (l : Lane) (d a b : VReg) (m : MReg) (s : State) : Host.Outcome State Fault Refusal :=
  vint2 .min h l d a b m s

/-- VMAX (R173). -/
def execVmax (h : Hdr) (l : Lane) (d a b : VReg) (m : MReg) (s : State) : Host.Outcome State Fault Refusal :=
  vint2 .max h l d a b m s

/-- VMINU (R173). -/
def execVminu (h : Hdr) (l : Lane) (d a b : VReg) (m : MReg) (s : State) : Host.Outcome State Fault Refusal :=
  vint2 .minu h l d a b m s

/-- VMAXU (R173). -/
def execVmaxu (h : Hdr) (l : Lane) (d a b : VReg) (m : MReg) (s : State) : Host.Outcome State Fault Refusal :=
  vint2 .maxu h l d a b m s

/-- VAND (R173). -/
def execVand (h : Hdr) (l : Lane) (d a b : VReg) (m : MReg) (s : State) : Host.Outcome State Fault Refusal :=
  vint2 .and h l d a b m s

/-- VOR (R173). -/
def execVor (h : Hdr) (l : Lane) (d a b : VReg) (m : MReg) (s : State) : Host.Outcome State Fault Refusal :=
  vint2 .or h l d a b m s

/-- VXOR (R173). -/
def execVxor (h : Hdr) (l : Lane) (d a b : VReg) (m : MReg) (s : State) : Host.Outcome State Fault Refusal :=
  vint2 .xor h l d a b m s

/-- VANDN (R173). -/
def execVandn (h : Hdr) (l : Lane) (d a b : VReg) (m : MReg) (s : State) : Host.Outcome State Fault Refusal :=
  vint2 .andn h l d a b m s

/-- VSHL (R173). -/
def execVshl (h : Hdr) (l : Lane) (d a b : VReg) (m : MReg) (s : State) : Host.Outcome State Fault Refusal :=
  vint2 .shl h l d a b m s

/-- VSHR (R173). -/
def execVshr (h : Hdr) (l : Lane) (d a b : VReg) (m : MReg) (s : State) : Host.Outcome State Fault Refusal :=
  vint2 .shr h l d a b m s

/-- VSAR (R173). -/
def execVsar (h : Hdr) (l : Lane) (d a b : VReg) (m : MReg) (s : State) : Host.Outcome State Fault Refusal :=
  vint2 .sar h l d a b m s

/-- VABS (R173). -/
def execVabs (h : Hdr) (l : Lane) (d a : VReg) (m : MReg) (s : State) : Host.Outcome State Fault Refusal :=
  plainStep h (fun _ => .vun .abs l d a m) s

/-- VNEG (R173). -/
def execVneg (h : Hdr) (l : Lane) (d a : VReg) (m : MReg) (s : State) : Host.Outcome State Fault Refusal :=
  plainStep h (fun _ => .vun .neg l d a m) s

/-- VADDI (R174). -/
def execVaddi (h : Hdr) (l : Lane) (d a : VReg) (imm : BitVec 16) (m : MReg) (s : State) : Host.Outcome State Fault Refusal :=
  vintImm .add h l d a imm m s

/-- VSUBI (R174). -/
def execVsubi (h : Hdr) (l : Lane) (d a : VReg) (imm : BitVec 16) (m : MReg) (s : State) : Host.Outcome State Fault Refusal :=
  vintImm .sub h l d a imm m s

/-- VMINI (R174). -/
def execVmini (h : Hdr) (l : Lane) (d a : VReg) (imm : BitVec 16) (m : MReg) (s : State) : Host.Outcome State Fault Refusal :=
  vintImm .min h l d a imm m s

/-- VMAXI (R174). -/
def execVmaxi (h : Hdr) (l : Lane) (d a : VReg) (imm : BitVec 16) (m : MReg) (s : State) : Host.Outcome State Fault Refusal :=
  vintImm .max h l d a imm m s

/-- VMINUI (R174). -/
def execVminui (h : Hdr) (l : Lane) (d a : VReg) (imm : BitVec 16) (m : MReg) (s : State) : Host.Outcome State Fault Refusal :=
  vintImm .minu h l d a imm m s

/-- VMAXUI (R174). -/
def execVmaxui (h : Hdr) (l : Lane) (d a : VReg) (imm : BitVec 16) (m : MReg) (s : State) : Host.Outcome State Fault Refusal :=
  vintImm .maxu h l d a imm m s

/-- VANDI (R174). -/
def execVandi (h : Hdr) (l : Lane) (d a : VReg) (imm : BitVec 16) (m : MReg) (s : State) : Host.Outcome State Fault Refusal :=
  vintImm .and h l d a imm m s

/-- VORI (R174). -/
def execVori (h : Hdr) (l : Lane) (d a : VReg) (imm : BitVec 16) (m : MReg) (s : State) : Host.Outcome State Fault Refusal :=
  vintImm .or h l d a imm m s

/-- VXORI (R174). -/
def execVxori (h : Hdr) (l : Lane) (d a : VReg) (imm : BitVec 16) (m : MReg) (s : State) : Host.Outcome State Fault Refusal :=
  vintImm .xor h l d a imm m s

/-- VANDNI (R174). -/
def execVandni (h : Hdr) (l : Lane) (d a : VReg) (imm : BitVec 16) (m : MReg) (s : State) : Host.Outcome State Fault Refusal :=
  vintImm .andn h l d a imm m s

/-- VSHLI (R174). -/
def execVshli (h : Hdr) (l : Lane) (d a : VReg) (imm : BitVec 16) (m : MReg) (s : State) : Host.Outcome State Fault Refusal :=
  vintImm .shl h l d a imm m s

/-- VSHRI (R174). -/
def execVshri (h : Hdr) (l : Lane) (d a : VReg) (imm : BitVec 16) (m : MReg) (s : State) : Host.Outcome State Fault Refusal :=
  vintImm .shr h l d a imm m s

/-- VSARI (R174). -/
def execVsari (h : Hdr) (l : Lane) (d a : VReg) (imm : BitVec 16) (m : MReg) (s : State) : Host.Outcome State Fault Refusal :=
  vintImm .sar h l d a imm m s

/-! ## Floating lanes (R175, R176) -/


/-- VFADD (R175). -/
def execVfadd (h : Hdr) (t : FTy) (rnd : Rnd) (d a b : VReg) (m : MReg) (s : State) : Host.Outcome State Fault Refusal :=
  vfp2 .add h t rnd d a b m s

/-- VFSUB (R175). -/
def execVfsub (h : Hdr) (t : FTy) (rnd : Rnd) (d a b : VReg) (m : MReg) (s : State) : Host.Outcome State Fault Refusal :=
  vfp2 .sub h t rnd d a b m s

/-- VFMUL (R175). -/
def execVfmul (h : Hdr) (t : FTy) (rnd : Rnd) (d a b : VReg) (m : MReg) (s : State) : Host.Outcome State Fault Refusal :=
  vfp2 .mul h t rnd d a b m s

/-- VFDIV (R175). -/
def execVfdiv (h : Hdr) (t : FTy) (rnd : Rnd) (d a b : VReg) (m : MReg) (s : State) : Host.Outcome State Fault Refusal :=
  vfp2 .div h t rnd d a b m s

/-- VFMIN (R175). -/
def execVfmin (h : Hdr) (t : FTy) (rnd : Rnd) (d a b : VReg) (m : MReg) (s : State) : Host.Outcome State Fault Refusal :=
  vfp2 .min h t rnd d a b m s

/-- VFMAX (R175). -/
def execVfmax (h : Hdr) (t : FTy) (rnd : Rnd) (d a b : VReg) (m : MReg) (s : State) : Host.Outcome State Fault Refusal :=
  vfp2 .max h t rnd d a b m s

/-- VFSQRT (R175). -/
def execVfsqrt (h : Hdr) (t : FTy) (rnd : Rnd) (d a : VReg) (m : MReg) (s : State) : Host.Outcome State Fault Refusal :=
  vfp1 .sqrt h t rnd d a m s

/-- VFABS (R175). -/
def execVfabs (h : Hdr) (t : FTy) (rnd : Rnd) (d a : VReg) (m : MReg) (s : State) : Host.Outcome State Fault Refusal :=
  vfp1 .abs h t rnd d a m s

/-- VFNEG (R175). -/
def execVfneg (h : Hdr) (t : FTy) (rnd : Rnd) (d a : VReg) (m : MReg) (s : State) : Host.Outcome State Fault Refusal :=
  vfp1 .neg h t rnd d a m s

/-- VFEX2 (R175). -/
def execVfex2 (h : Hdr) (t : FTy) (rnd : Rnd) (d a : VReg) (m : MReg) (s : State) : Host.Outcome State Fault Refusal :=
  vfp1 .ex2 h t rnd d a m s

/-- VFLG2 (R175). -/
def execVflg2 (h : Hdr) (t : FTy) (rnd : Rnd) (d a : VReg) (m : MReg) (s : State) : Host.Outcome State Fault Refusal :=
  vfp1 .lg2 h t rnd d a m s

/-- VFMA (R176). -/
def execVfma (h : Hdr) (t : FTy) (rnd : Rnd) (d a b c : VReg) (m : MReg) (s : State) : Host.Outcome State Fault Refusal :=
  vfma3 .ma h t rnd d a b c m s

/-- VFMS (R176). -/
def execVfms (h : Hdr) (t : FTy) (rnd : Rnd) (d a b c : VReg) (m : MReg) (s : State) : Host.Outcome State Fault Refusal :=
  vfma3 .ms h t rnd d a b c m s

/-- VFNMA (R176). -/
def execVfnma (h : Hdr) (t : FTy) (rnd : Rnd) (d a b c : VReg) (m : MReg) (s : State) : Host.Outcome State Fault Refusal :=
  vfma3 .nma h t rnd d a b c m s


/-! ## Compare, select, masks, moves and conversion (R177 to R182, R185) -/

/-- VCMP (R177). -/
def execVcmp (h : Hdr) (cond : Cond) (t : VTy) (d : MReg) (a b : VReg) (m : MReg) (s : State) : Host.Outcome State Fault Refusal :=
  plainStep h (fun _ => .vcmp cond t d a b m) s
/-- VSEL (R178). -/
def execVsel (h : Hdr) (d a b : VReg) (m : MReg) (s : State) : Host.Outcome State Fault Refusal := plainStep h (fun _ => .vsel d a b m) s
/-- MAND (R179). -/
def execMand (h : Hdr) (d a b : MReg) (s : State) : Host.Outcome State Fault Refusal := plainStep h (fun _ => .mask .and d a b) s
/-- MOR (R179). -/
def execMor (h : Hdr) (d a b : MReg) (s : State) : Host.Outcome State Fault Refusal := plainStep h (fun _ => .mask .or d a b) s
/-- MXOR (R179). -/
def execMxor (h : Hdr) (d a b : MReg) (s : State) : Host.Outcome State Fault Refusal := plainStep h (fun _ => .mask .xor d a b) s
/-- MNOT (R179). -/
def execMnot (h : Hdr) (d a : MReg) (s : State) : Host.Outcome State Fault Refusal := plainStep h (fun _ => .mask .not d a a) s
/-- MSET (R179). -/
def execMset (h : Hdr) (d : MReg) (imm : BitVec 16) (s : State) : Host.Outcome State Fault Refusal := plainStep h (fun _ => .mset d imm) s
/-- VPERM (R180). -/
def execVperm (h : Hdr) (l : Lane) (d a b : VReg) (m : MReg) (s : State) : Host.Outcome State Fault Refusal :=
  plainStep h (fun _ => .vperm l d a b m) s
/-- VSPLAT (R180). -/
def execVsplat (h : Hdr) (l : Lane) (d : VReg) (src : ScalarSrc) (m : MReg) (s : State) : Host.Outcome State Fault Refusal :=
  plainStep h (fun s => .vsplat l d (s.vsrc src) m) s
/-- VEXT (R180). -/
def execVext (h : Hdr) (l : Lane) (d : GReg) (a : VReg) (ix : BitVec 4) (s : State) : Host.Outcome State Fault Refusal :=
  plainStep h (fun _ => .vext l d a ix.toNat) s
/-- VINS (R180). -/
def execVins (h : Hdr) (l : Lane) (d : VReg) (src : ScalarSrc) (ix : BitVec 4) (m : MReg) (s : State) : Host.Outcome State Fault Refusal :=
  plainStep h (fun s => .vins l d (s.vsrc src) ix.toNat m) s
/-- VMOV (R180). -/
def execVmov (h : Hdr) (d a : VReg) (m : MReg) (s : State) : Host.Outcome State Fault Refusal := plainStep h (fun _ => .vmov d a m) s
/-- The two operands of VMOVG at dispatch (R180). -/
def State.vmovgCmd (s : State) (d : VReg) (src : VmovgSrc) (m : MReg) : VCmd :=
  match src with
  | .g x y => .vmovg d (.val (s.g x)) (.val (s.g y)) m
  | .q x y => .vmovg d (.q x) (.q y) m
/-- VMOVG (R180). -/
def execVmovg (h : Hdr) (d : VReg) (src : VmovgSrc) (m : MReg) (s : State) : Host.Outcome State Fault Refusal :=
  plainStep h (fun s => s.vmovgCmd d src m) s
/-- VCVT (R181, R182). -/
def execVcvt (h : Hdr) (src dst : CvtTy) (part : BitVec 2) (rnd : Rnd) (inf : BitVec 1) (d a : VReg) (sc : ScalarSrc)
    (ae : BitVec 1) (mxn : MxReg) (m : MReg) (s : State) : Host.Outcome State Fault Refusal :=
  plainStep h (fun s => .vcvt src dst part.toNat rnd (inf == 1) d a (s.scaleSrc sc) (if ae = 1 then some mxn else none) m) s
/-- VHADD (R185). -/
def execVhadd (h : Hdr) (t : VTy) (rnd : Rnd) (d a : VReg) (m : MReg) (s : State) : Host.Outcome State Fault Refusal :=
  plainStep h (fun _ => .vhadd t rnd d a m) s

/-! ## Memory (R183, R184) -/

/-- VLD (R183). -/
def execVld (h : Hdr) (d : VReg) (a : GReg) (off : BitVec 32) (m : MReg) (s : State) : Host.Outcome State Fault Refusal :=
  vmemStep h m (fun s => s.vglobalTrap (s.ea a off) m needR)
    (fun s => .vload d (s.vglobalAccs (s.ea a off) m)) s
/-- VST (R183). -/
def execVst (h : Hdr) (b : VReg) (a : GReg) (off : BitVec 32) (m : MReg) (s : State) : Host.Outcome State Fault Refusal :=
  vmemStep h m (fun s => s.vglobalTrap (s.ea a off) m needW)
    (fun s => .vstore b (s.vglobalAccs (s.ea a off) m)) s
/-- VLDS (R183). -/
def execVlds (h : Hdr) (buf : Buf) (d : VReg) (a : GReg) (off : BitVec 32) (m : MReg) (s : State) : Host.Outcome State Fault Refusal :=
  vmemStep h m (fun s => s.vtypedTrap buf (s.ea a off) m)
    (fun s => .vload d (s.vtypedAccs buf (s.ea a off) m)) s
/-- VSTS (R183). -/
def execVsts (h : Hdr) (buf : Buf) (b : VReg) (a : GReg) (off : BitVec 32) (m : MReg) (s : State) : Host.Outcome State Fault Refusal :=
  vmemStep h m (fun s => s.vtypedTrap buf (s.ea a off) m)
    (fun s => .vstore b (s.vtypedAccs buf (s.ea a off) m)) s
/-- VGATH (R184). -/
def execVgath (h : Hdr) (sp : Space) (l : Lane) (d : VReg) (a : GReg) (b : VReg) (off : BitVec 32) (m : MReg)
    (s : State) : Host.Outcome State Fault Refusal :=
  gsStep h [] sp l a b off m needR (fun s base => .vgath d (s.gsAccs sp base b l.bytes m) (s.gsZeros l.bytes m)) s
/-- VSCAT (R184). -/
def execVscat (h : Hdr) (sp : Space) (l : Lane) (a : GReg) (b c : VReg) (off : BitVec 32) (m : MReg) (s : State) : Host.Outcome State Fault Refusal :=
  gsStep h [.v c.toNat] sp l a b off m needW (fun s base => .vscat c (s.gsAccs sp base b l.bytes m)) s

/-! ## Ganging (R186, R188) -/

/-- VXG (R188). -/
def execVxg (h : Hdr) (d a : VReg) (ix : BitVec 4) (m : MReg) (s : State) : Host.Outcome State Fault Refusal :=
  commandStep h 8 (fun s => if s.run.gang.isSome then none else some { trap := .illegal, addr := 0 })
    (fun _ => .vxg d a ix.toInt m) s
/-- A core runs a segment. -/
def State.busyCore (s : State) (core : Nat) : Bool :=
  if s.core = core then s.run.on else s.mod.others.any (fun e => e.core == core && e.run.on)
/-- Members 1 to 3 as GANG.ON finds them: v and m registers zero (R186). -/
def gangFresh : Vector Member 3 := Vector.replicate 3 { v := Vector.replicate 32 0, m := Vector.replicate 8 0 }
/-- GANG.ON; while another core of the quad runs a segment, the scalar stream stalls here, and a core of the quad that has
ended its segment starts no other (R186). -/
def execGangOn (h : Hdr) (s : State) : Host.Outcome State Fault Refusal :=
  checkedStep h 8 (fun s =>
    let flagged := (s.cur.map (fun t => t.tcb.gang)).getD false
    if !flagged || s.curHandler || s.run.gang.isSome || s.run.retired then s.trap .illegal
    else if (quadOthers s.core).any s.busyCore then { s with run := { s.run with gangWait := true } }
    else ({ s with run := { s.run with gang := some gangFresh, gangWait := false } }).retire 8) s
/-- GANG.OFF; it waits for the vector commands before it (R186). -/
def execGangOff (h : Hdr) (s : State) : Host.Outcome State Fault Refusal :=
  checkedStep h 8 (fun s =>
    if s.run.gang.isSome && !s.run.vq.isEmpty then s.deadlock
    else if s.run.gang.isSome then ({ s with run := { s.run with gang := none } }).freeQuad.retire 8
    else s.retire 8) s

end Sys2Proof.Machine
end

