-- ==== Sys2Proof/Machine/Matrix.lean ====
section
/-! DEFINITION. Tile, matrix and summary instructions (R189 to R196, R200 to R207): their checks at dispatch and what
they dispatch. The results are in Tiles.lean and Sketch.lean. -/

namespace Sys2Proof.Machine

/-! ## Tile loads and stores (R190 to R193) -/

/-- TCFG (R190). -/
def execTcfg (h : Hdr) (d : TReg) (a : GReg) (s : State) : Host.Outcome State Fault Refusal :=
  checkedStep h 8 (fun s =>
    let x := s.g a
    if tcfgOk x then ({ s with r := { s.r with tcfg := s.r.tcfg.set d.toNat (x.setWidth 20) } }).retire 8
    else s.trap .illegal) s
/-- The configuration of a tile under a command's layout; none where R37 or R54 traps ILLEGAL. R54 speaks of a read under
XOR16 of a COLB that breaks R53; a TLD that writes the tile so traps too, since R53 gives its bytes no places
(DEDUCED, log 14). -/
def State.tileUse (s : State) (t : TReg) (l : Layout) : Option TCfg :=
  match s.tile? t with
  | none => none
  | some c =>
    let c := c.use l
    if c.lay = .xor16 && !xorOk c.colb then none else some c
/-- The buffer of a tile access; none for a global address. -/
def tmemBuf : TMem → Option Buf
  | .global => none | .w => some .w | .a => some .a
/-- Starts of the rows (R191). -/
def rowStarts (ea : Word) (stride : BitVec 16) (rows : Nat) : List Word :=
  (List.range rows).map (fun j => ea + BitVec.ofNat 64 (j * stride.toNat))
/-- The format descriptor index of the page that holds an address; 0 without translation. -/
def State.pageFmt (s : State) (va : Nat) : Nat :=
  if s.untranslated then 0 else ((s.leafFor s.run.ctx va).map leafFmt).getD 0
/-- Whether every page of a row is FMT 0 or of the tile's element format (R192). -/
def State.rowFmtOk (s : State) (fmt : Nat) (va n : Nat) : Bool :=
  (pieceStarts va n).all (fun a =>
    let f := s.pageFmt a
    f == 0 || (match s.fmtDesc s.run.ctx f with | none => false | some d => d.fmt == fmt))
/-- The descriptor with a block geometry that gives a row its scale, if any (R49, R192). -/
def State.rowGeom (s : State) (va : Nat) : Option FmtDesc :=
  let f := s.pageFmt va
  if f = 0 then none else
  match s.fmtDesc s.run.ctx f with
  | none => none
  | some d => if d.geom = 0 then none else some d
/-- Elements of a scale group (R48). -/
def FmtDesc.group (d : FmtDesc) : Nat := if d.geom = 1 then 128 else 16384
/-- The scale address of a row, or the address at which R49 traps FMT. -/
def rowScale (d : FmtDesc) (cfg : TCfg) (ea va : Nat) : Sum Nat Nat :=
  let base := va / 2 ^ 25 * 2 ^ 25
  let es := esize cfg.fmt
  let g := (va - base) / es / d.group
  let sa := base + d.scoff + 4 * g
  if 16 < cfg.rows then .inr ea
  else if (va + cfg.colb - 1 - base) / es / d.group ≠ g then .inr va
  else if base + 2 ^ 25 < sa + 4 then .inr sa
  else .inl sa
/-- For each row of a global load with SCALE page: none for 1.0, else its scale address or FMT address. -/
def State.rowScales (s : State) (cfg : TCfg) (ea : Nat) (starts : List Word) : List (Option (Sum Nat Nat)) :=
  starts.map (fun a => (s.rowGeom a.toNat).map (fun d => rowScale d cfg ea a.toNat))
/-- The scale addresses read. -/
def scaleAddrs (l : List (Option (Sum Nat Nat))) : List (Option Nat) :=
  l.map (fun x => match x with | some (.inl a) => some a | _ => none)
/-- The FMT trap of a row: its pages, then its scale group (R32, R49, R366). -/
def State.rowFmtTrap (s : State) (cfg : TCfg) (x : Word × Option (Sum Nat Nat)) : Option TrapAt :=
  if !s.rowFmtOk cfg.fmt x.1.toNat cfg.colb then some { trap := .fmt, addr := x.1 }
  else match x.2 with
    | some (.inr a) => some { trap := .fmt, addr := BitVec.ofNat 64 a }
    | _ => none
/-- The check of a tile access to a typed buffer or to global addresses; `scales` says that scale reads are made
(R191 to R193). Among the rows and the scale words the code is the first of R39, at the first that fails with it
(DEDUCED, log 14). An ALIGN that only STRIDE raises reports row 0's start (DESIGN CHOICE, log 14), and the ROWS and group
rules of R49 are made with SCALE page alone (DEDUCED, log 14). -/
def State.tileTrap (s : State) (mem : TMem) (ea : Word) (stride : BitVec 16) (cfg : TCfg) (need : Need) (scales : Bool) :
    Option TrapAt :=
  let starts := rowStarts ea stride cfg.rows
  match tmemBuf mem with
  | some b =>
    if stride.toNat % 16 ≠ 0 ∨ ea.toNat % 16 ≠ 0 then some { trap := .align, addr := typedAddr b ea }
    else firstTrap (starts.filterMap (fun a => s.bufTrap b a cfg.colb 16))
  | none =>
    if stride.toNat % 16 ≠ 0 ∨ ea.toNat % 16 ≠ 0 then some { trap := .align, addr := ea }
    else
      let sc := if scales then s.rowScales cfg ea.toNat starts else starts.map (fun _ => none)
      let rows := starts.filterMap (fun a => s.globalTrap a cfg.colb need)
      let words := (scaleAddrs sc).filterMap (fun x => x.bind (fun a => s.globalTrap (BitVec.ofNat 64 a) 4 needR))
      match firstTrap (rows ++ words) with
      | some t => some t
      | none => (starts.zip sc).findSome? (fun x => s.rowFmtTrap cfg x)
/-- The rows of a checked access: TRAPADDR of each row's first byte, and its bytes' places. -/
def State.tileRows (s : State) (mem : TMem) (ea : Word) (stride : BitVec 16) (cfg : TCfg) : List (Word × List Loc) :=
  (rowStarts ea stride cfg.rows).map (fun a =>
    match tmemBuf mem with
    | some b => (typedAddr b a, bufLocs b a.toNat cfg.colb)
    | none => (a, s.locs a.toNat cfg.colb))
/-- How a checked load fills the sidecar (R192). -/
def State.sideFill (s : State) (mem : TMem) (ea : Word) (stride : BitVec 16) (cfg : TCfg) (sc : ScaleMode) : SideFill :=
  match sc, tmemBuf mem with
  | .keep, _ => .keep
  | .ones, _ => .ones
  | .page, some _ => .ones
  | .page, none =>
    .page ((scaleAddrs (s.rowScales cfg ea.toNat (rowStarts ea stride cfg.rows))).map (fun x =>
      x.map (fun a => (BitVec.ofNat 64 a, s.locs a 4))))
/-- The checks of a global access have read the descriptors of its pages: they are cached, and the pages that hold them
are touched (R337, R338). -/
def State.tileFmts (s : State) (mem : TMem) (ea : Word) (stride : BitVec 16) (cfg : TCfg) : State :=
  match tmemBuf mem with
  | some _ => s
  | none =>
    if s.untranslated then s else
    let starts := rowStarts ea stride cfg.rows
    let fs := (starts.flatMap (fun a => (pieceStarts a.toNat cfg.colb).map s.pageFmt)).filter (· ≠ 0)
    fs.foldl (fun s f => s.cacheFmt s.run.ctx f) s
/-- TLD (R191, R192). -/
def execTld (h : Hdr) (mem : TMem) (d : TReg) (a : GReg) (imm : BitVec 16) (stride : BitVec 16) (lay : Layout)
    (sc : ScaleMode) (s : State) : Host.Outcome State Fault Refusal :=
  checkedStep h 12 (fun s =>
    match s.tileUse d lay with
    | none => s.trap .illegal
    | some cfg =>
      let ea := s.ea16 a imm
      match s.tileTrap mem ea stride cfg needR (sc = .page) with
      | some t => (if t.trap = .fmt then s.tileFmts mem ea stride cfg else s).accessTrap t s.r.pc
      | none =>
        let s := s.tileFmts mem ea stride cfg
        s.dispatch h 12 (.tld d cfg (s.tileRows mem ea stride cfg) (s.sideFill mem ea stride cfg sc))) s
/-- TST (R193). -/
def execTst (h : Hdr) (mem : TMem) (b : TReg) (a : GReg) (imm : BitVec 16) (stride : BitVec 16) (lay : Layout)
    (s : State) : Host.Outcome State Fault Refusal :=
  checkedStep h 12 (fun s =>
    match s.tileUse b lay with
    | none => s.trap .illegal
    | some cfg =>
      let ea := s.ea16 a imm
      match s.tileTrap mem ea stride cfg needW false with
      | some t => (if t.trap = .fmt then s.tileFmts mem ea stride cfg else s).accessTrap t s.r.pc
      | none =>
        let s := s.tileFmts mem ea stride cfg
        s.dispatch h 12 (.tst b cfg (s.tileRows mem ea stride cfg))) s

/-! ## Tiles and accumulators (R194 to R196, R200 to R202) -/

/-- A matrix command whose dispatch needs a value, or traps ILLEGAL without one. -/
def matrixStep (h : Hdr) (cmd : State → Option VCmd) (s : State) : Host.Outcome State Fault Refusal :=
  checkedStep h 8 (fun s =>
    match cmd s with
    | none => s.trap .illegal
    | some c => s.dispatch h 8 c) s
/-- TZERO (R194). -/
def execTzero (h : Hdr) (d : TReg) (s : State) : Host.Outcome State Fault Refusal :=
  matrixStep h (fun s => (s.tile? d).map (fun c => .tzero d c)) s
/-- CZERO (R194). -/
def execCzero (h : Hdr) (d : CReg) (s : State) : Host.Outcome State Fault Refusal := matrixStep h (fun _ => some (.czero d)) s
/-- Whether two configurations form one of the MMA paths (R195). -/
def mmaOk (ca cb : TCfg) : Bool :=
  ca.rows == 16 && cb.rows == 16 && ca.colb == 128 && cb.colb == 128 &&
    ((ca.fmt ≤ 1 && cb.fmt ≤ 1) || (ca.fmt == 2 && cb.fmt == 2) || (ca.fmt == 5 && cb.fmt == 5))
/-- MMA (R195). -/
def execMma (h : Hdr) (d : CReg) (a b : TReg) (s : State) : Host.Outcome State Fault Refusal :=
  matrixStep h (fun s =>
    match s.tile? a, s.tile? b with
    | some ca, some cb => if mmaOk ca cb then some (.mma d a b ca cb) else none
    | _, _ => none) s
/-- CLD (R196). -/
def execCld (h : Hdr) (d : CReg) (a : GReg) (off : BitVec 32) (s : State) : Host.Outcome State Fault Refusal :=
  commandStep h 12 (fun s => s.bufTrap .c (s.ea a off) 1024 16) (fun s => .cld d (s.ea a off).toNat) s
/-- CST (R196). -/
def execCst (h : Hdr) (b : CReg) (a : GReg) (off : BitVec 32) (s : State) : Host.Outcome State Fault Refusal :=
  commandStep h 12 (fun s => s.bufTrap .c (s.ea a off) 1024 16) (fun s => .cst b (s.ea a off).toNat) s
/-- The format code of a conversion destination (R41, R181). -/
def fmtCode : CvtTy → Nat
  | .e4m3 => 0 | .e5m2 => 1 | .bf16 => 2 | .f16 => 3 | .f32 => 4 | .i8 => 5 | .i32 => 6
/-- CCVT (R200). -/
def execCcvt (h : Hdr) (dst : CvtTy) (rnd : Rnd) (inf : BitVec 1) (cb : BitVec 4) (d : TReg) (a : CReg) (sc : ScalarSrc)
    (ae : BitVec 1) (mxn : MxReg) (s : State) : Host.Outcome State Fault Refusal :=
  matrixStep h (fun s =>
    match s.tile? d with
    | none => none
    | some c =>
      if c.fmt = fmtCode dst ∧ c.rows = 16 ∧ 16 * (cb.toNat + 1) ≤ c.elems then
        some (.ccvt dst rnd (inf == 1) cb.toNat d c a (s.scaleSrc sc) (if ae = 1 then some mxn else none))
      else none) s
/-- TTR (R201). -/
def execTtr (h : Hdr) (d a : TReg) (s : State) : Host.Outcome State Fault Refusal :=
  matrixStep h (fun s =>
    match s.tile? d, s.tile? a with
    | some cd, some ca =>
      if cd.fmt = ca.fmt ∧ cd.rows = ca.elems ∧ cd.elems = ca.rows then some (.ttr d a cd ca) else none
    | _, _ => none) s
/-- MXR (R202). -/
def execMxr (h : Hdr) (d : GReg) (a : MxReg) (s : State) : Host.Outcome State Fault Refusal :=
  matrixStep h (fun _ => some (.mxr d a)) s
/-- MXCLR (R202). -/
def execMxclr (h : Hdr) (d : MxReg) (s : State) : Host.Outcome State Fault Refusal :=
  matrixStep h (fun _ => some (.mxclr d)) s

/-! ## Summaries (R203 to R207) -/

/-- The check of a pair operand: ALIGN, then PAGE_PERM (R203). -/
def State.pairTrap (s : State) (ea : Word) : Option TrapAt := s.bufTrap .c ea 8192 4096
/-- The offset of the copy that a summary instruction reads (R57). -/
def State.pairCopy (s : State) (off : Nat) : Nat :=
  if s.pairRefreshed off then workingOff s.rank.c off else committedOff s.rank.c off
/-- BUSY in the block at the pair base (R58, R203). -/
def State.pairBusy (s : State) (off : Nat) : Bool := bitOf (s.rank.c.get (off + 2)).toNat 1
/-- The type in the copy read. -/
def State.pairType (s : State) (off : Nat) : Option SkTy := skTy (s.rank.c.get (s.pairCopy off)).toNat
/-- The checks of a pair's bytes: ILLEGAL, then ENGINE (R203). -/
def State.pairCheck (s : State) (t : SkTy) (off : Nat) : Option Trap :=
  if !togOk (s.rank.c.get (off + 3)) || !skOk t (s.bufRead .c (s.pairCopy off) 4096) then some .illegal
  else if s.pairBusy off then some .engine
  else none
/-- Whether opening a pair would open a ninth (R203). -/
def State.pairFull (s : State) (off : Nat) : Bool := !s.run.pairs.any (fun p => p.off == off) && 8 ≤ s.run.pairs.length
/-- A pair opened, not yet refreshed. -/
def State.openPair (s : State) (off : Nat) : State :=
  if s.run.pairs.any (fun p => p.off == off) then s
  else { s with run := { s.run with pairs := s.run.pairs ++ [{ off := off, refreshed := false }] } }
/-- A summary instruction whose pair operand and byte checks have passed: it opens its pair and dispatches. -/
def State.openAndDispatch (s : State) (h : Hdr) (off : Nat) (cmd : VCmd) : State :=
  if s.pairFull off then s.trap .sklimit else (s.openPair off).dispatch h 8 cmd
/-- SKINIT (R204). -/
def execSkinit (h : Hdr) (t : SkTy) (a : GReg) (imm : BitVec 16) (s : State) : Host.Outcome State Fault Refusal :=
  checkedStep h 8 (fun s =>
    let ea := s.ea16 a imm
    match s.pairTrap ea with
    | some tr => s.trap tr.trap tr.addr
    | none => s.needs [.buf .c ea.toNat 8192] [] (fun s =>
      if s.pairBusy ea.toNat then s.trap .engine
      else s.openAndDispatch h ea.toNat (.skinit t ea.toNat s.r.coinseed))) s
/-- A SKADD of a type (R205). -/
def skaddStep (t : SkTy) (h : Hdr) (b : VReg) (a : GReg) (imm : BitVec 16) (m : MReg) (s : State) :
    Host.Outcome State Fault Refusal :=
  checkedStep h 8 (fun s =>
    let ea := s.ea16 a imm
    match s.pairTrap ea with
    | some tr => s.trap tr.trap tr.addr
    | none => s.needs [.buf .c ea.toNat 8192] [] (fun s =>
      match s.pairCheck t ea.toNat with
      | some tr => s.trap tr
      | none => s.openAndDispatch h ea.toNat (.skadd t ea.toNat b m s.rankNo))) s
/-- SKQADD (R205). -/
def execSkqadd (h : Hdr) (b : VReg) (a : GReg) (imm : BitVec 16) (m : MReg) (s : State) :
    Host.Outcome State Fault Refusal := skaddStep .q h b a imm m s
/-- SKHADD (R205). -/
def execSkhadd (h : Hdr) (b : VReg) (a : GReg) (imm : BitVec 16) (m : MReg) (s : State) :
    Host.Outcome State Fault Refusal := skaddStep .h h b a imm m s
/-- SKDADD (R205). -/
def execSkdadd (h : Hdr) (b : VReg) (a : GReg) (imm : BitVec 16) (m : MReg) (s : State) :
    Host.Outcome State Fault Refusal := skaddStep .d h b a imm m s
/-- SKMADD (R205). -/
def execSkmadd (h : Hdr) (b : VReg) (a : GReg) (imm : BitVec 16) (m : MReg) (s : State) :
    Host.Outcome State Fault Refusal := skaddStep .m h b a imm m s
/-- The buffer of a code; code 3 names none (R25). -/
def bufOfCode (n : Nat) : Option Buf :=
  match n with
  | 0 => some .w | 1 => some .a | 2 => some .c | _ => none
/-- The source operand of SKMERGE (R206). -/
def skSource (x : Word) : Option (Buf × Nat) :=
  let n := x.toNat
  if n / 2 ^ 20 ≠ 0 then none else (bufOfCode (bits n 19 18)).map (fun b => (b, bits n 17 0))
/-- The place checks of SKMERGE, in the order of R39. -/
def State.mergeTrap (s : State) (ea : Word) (b : Buf) (off : Nat) : Option TrapAt :=
  firstTrap ((s.pairTrap ea).toList ++ (s.bufTrap b (BitVec.ofNat 64 off) 4096 64).toList)
/-- The source block's byte check: TOGGLE and BUSY are not examined (R206). -/
def State.sourceOk (s : State) (t : SkTy) (b : Buf) (off : Nat) : Bool := skOk t (s.bufRead b off 4096)
/-- SKMERGE (R206). -/
def execSkmerge (h : Hdr) (b a : GReg) (imm : BitVec 16) (s : State) : Host.Outcome State Fault Refusal :=
  checkedStep h 8 (fun s =>
    let ea := s.ea16 a imm
    match skSource (s.g b) with
    | none => s.trap .illegal
    | some (sb, so) =>
      match s.mergeTrap ea sb so with
      | some tr => s.trap tr.trap tr.addr
      | none => s.needs [.buf .c ea.toNat 8192, .buf sb so 4096] [] (fun s =>
        match s.pairType ea.toNat with
        | none => s.trap .illegal
        | some t =>
          if !s.sourceOk t sb so then s.trap .illegal
          else match s.pairCheck t ea.toNat with
            | some tr => s.trap tr
            | none => s.openAndDispatch h ea.toNat (.skmerge t ea.toNat sb so s.rankNo))) s
/-- A query of a type: the value from the copy that R57 names (R207). -/
def skquery (t : SkTy) (h : Hdr) (d a : GReg) (imm : BitVec 16) (ok : State → Bool) (f : State → Sk → Word) (s : State) :
    Host.Outcome State Fault Refusal :=
  checkedStep h 8 (fun s =>
    let ea := s.ea16 a imm
    if !ok s then s.trap .illegal else
    match s.pairTrap ea with
    | some tr => s.trap tr.trap tr.addr
    | none => s.needs [.buf .c ea.toNat 8192] [] (fun s =>
      match s.firstPoison (bufLocs .c (s.pairCopy ea.toNat) 4096) with
      | some i => (s.countPoison none).trap .poison (typedAddr .c (BitVec.ofNat 64 (s.pairCopy ea.toNat + i)))
      | none =>
        match s.pairCheck t ea.toNat with
        | some tr => s.trap tr
        | none => (s.setG d (f s (skParse t (s.bufRead .c (s.pairCopy ea.toNat) 4096)))).retire 8)) s
/-- SKQUANT (R207). -/
def execSkquant (h : Hdr) (d b a : GReg) (imm : BitVec 16) (s : State) : Host.Outcome State Fault Refusal :=
  skquery .q h d a imm (fun _ => true) (fun s k => BitVec.ofNat 64 (qQuery k ((s.g b).toNat % 2 ^ 32))) s
/-- What SKTOPK returns (R66, R207). -/
def topkWord (k : Sk) (sel : Nat) : Word :=
  match (sortBy ctrLe k.ctrs)[sel % 256]? with
  | none => 0
  | some c => BitVec.ofNat 64 ((if bitOf sel 8 then c.2.2 else c.2.1) * 2 ^ 32 + c.1)
/-- SKTOPK (R207). -/
def execSktopk (h : Hdr) (d b a : GReg) (imm : BitVec 16) (s : State) : Host.Outcome State Fault Refusal :=
  skquery .h h d a imm (fun s => (s.g b).toNat < 512) (fun s k => topkWord k (s.g b).toNat) s
/-- SKCARD (R207). -/
def execSkcard (h : Hdr) (d a : GReg) (imm : BitVec 16) (s : State) : Host.Outcome State Fault Refusal :=
  skquery .d h d a imm (fun _ => true) (fun _ k => BitVec.ofNat 64 (dEstimate k.regs)) s
/-- What SKMOM returns (R207). -/
def momWord (k : Sk) (sel : Nat) : Word :=
  BitVec.ofNat 64 (match sel with
    | 0 => k.count
    | 1 => k.mean
    | 2 => if k.count = 0 then fmtF32.nan else (div32 k.m2 (natF32 k.count).bits).bits
    | 3 => k.min
    | _ => k.max)
/-- SKMOM (R207). -/
def execSkmom (h : Hdr) (d b a : GReg) (imm : BitVec 16) (s : State) : Host.Outcome State Fault Refusal :=
  skquery .m h d a imm (fun s => (s.g b).toNat ≤ 4) (fun s k => momWord k (s.g b).toNat) s

end Sys2Proof.Machine
end

