-- ==== Sys2Proof/Machine/Crypto.lean ====
section
/-! DEFINITION. The digest and the signature scheme that R342 names: SHA3-512 of FIPS 202 and ML-DSA-87 of FIPS 204 in its
pure form with an empty context string. Both are written from the published standards, whose texts the spec does not repeat
(PRESUMED, log 7). -/

namespace Sys2Proof.Machine

/-! ## Keccak (FIPS 202) -/

/-- The rotation of each of the 25 lanes, lane (x, y) at 5y + x. -/
def keccakRot : List Nat := [0, 1, 62, 28, 27, 36, 44, 6, 55, 20, 3, 10, 43, 25, 39, 41, 45, 15, 21, 8, 18, 2, 61, 56, 14]
/-- The constants of the 24 rounds. -/
def keccakRounds : List Word :=
  [0x0000000000000001, 0x0000000000008082, 0x800000000000808A, 0x8000000080008000, 0x000000000000808B, 0x0000000080000001,
   0x8000000080008081, 0x8000000000008009, 0x000000000000008A, 0x0000000000000088, 0x0000000080008009, 0x000000008000000A] ++
  [0x000000008000808B, 0x800000000000008B, 0x8000000000008089, 0x8000000000008003, 0x8000000000008002, 0x8000000000000080,
   0x000000000000800A, 0x800000008000000A, 0x8000000080008081, 0x8000000000008080, 0x0000000080000001, 0x8000000080008008]
/-- The state: 25 lanes. -/
abbrev Lanes := Vector Word 25
/-- Lane (x, y), both modulo 5. -/
def Lanes.at_ (a : Lanes) (x y : Nat) : Word := a.toList.getD (5 * (y % 5) + x % 5) 0
/-- The steps theta, rho and pi, chi and iota. -/
def Lanes.theta (a : Lanes) : Lanes :=
  let c (x : Nat) : Word := a.at_ x 0 ^^^ a.at_ x 1 ^^^ a.at_ x 2 ^^^ a.at_ x 3 ^^^ a.at_ x 4
  let d : List Word := (List.range 5).map (fun x => c (x + 4) ^^^ (c (x + 1)).rotateLeft 1)
  Vector.ofFn (fun i => a[i] ^^^ d.getD (i.val % 5) 0)
def Lanes.rhoPi (a : Lanes) : Lanes :=
  Vector.ofFn (fun i =>
    let x := (i.val % 5 + 3 * (i.val / 5)) % 5
    let y := i.val % 5
    (a.at_ x y).rotateLeft (keccakRot.getD (5 * y + x) 0))
def Lanes.chi (a : Lanes) : Lanes :=
  Vector.ofFn (fun i => a[i] ^^^ (~~~(a.at_ (i.val + 1) (i.val / 5)) &&& a.at_ (i.val + 2) (i.val / 5)))
def Lanes.iota (a : Lanes) (c : Word) : Lanes := a.set 0 (a[0] ^^^ c)
/-- The permutation Keccak-f[1600]. -/
@[irreducible] def keccakF (a : Lanes) : Lanes := keccakRounds.foldl (fun a c => a.theta.rhoPi.chi.iota c) a
/-- A block of r bytes absorbed. -/
def absorb (a : Lanes) (block : List Byte) : Lanes :=
  keccakF (Vector.ofFn (fun i => a[i] ^^^ BitVec.ofNat 64 (leNat ((block.drop (8 * i.val)).take 8))))
/-- Blocks of r bytes, absorbed in order; the first argument bounds their number. -/
def absorbAll (r : Nat) : Nat → Lanes → List Byte → Lanes
  | 0, a, _ => a
  | n + 1, a, bs => if bs.isEmpty then a else absorbAll r n (absorb a (bs.take r)) (bs.drop r)
/-- A message with its domain bits, padded to whole blocks of r bytes. -/
def keccakPad (r : Nat) (suffix : Byte) (m : List Byte) : List Byte :=
  let n := r - m.length % r
  if n = 1 then m ++ [suffix ||| 0x80] else m ++ [suffix] ++ zeros (n - 2) ++ [0x80]
/-- n blocks of r bytes squeezed. -/
def squeeze (r : Nat) : Nat → Lanes → List Byte
  | 0, _ => []
  | n + 1, a => (a.toList.flatMap (fun w => natBytes 8 w.toNat)).take r ++ squeeze r n (keccakF a)
/-- A sponge of rate r bytes with n bytes of output. -/
def sponge (r : Nat) (suffix : Byte) (m : List Byte) (n : Nat) : List Byte :=
  let p := keccakPad r suffix m
  (squeeze r ((n + r - 1) / r) (absorbAll r p.length (Vector.replicate 25 0) p)).take n
/-- SHA3-512, its 64 bytes read as a little-endian number. -/
@[irreducible] def sha3 (m : List Byte) : BitVec 512 := BitVec.ofNat 512 (leNat (sponge 72 0x06 m 64))
/-- SHAKE128 and SHAKE256. -/
@[irreducible] def shake128 (m : List Byte) (n : Nat) : List Byte := sponge 168 0x1F m n
@[irreducible] def shake256 (m : List Byte) (n : Nat) : List Byte := sponge 136 0x1F m n

/-! ## ML-DSA-87 (FIPS 204) -/

/-- The parameters: modulus, rows and columns of the matrix, dropped bits of t, ones of the challenge, bounds and the limit of
hint ones. -/
def dsaQ : Nat := 8380417
def dsaK : Nat := 8
def dsaL : Nat := 7
def dsaD : Nat := 13
def dsaTau : Nat := 60
def dsaGamma1 : Nat := 2 ^ 19
def dsaGamma2 : Nat := (dsaQ - 1) / 32
def dsaOmega : Nat := 75
def dsaBeta : Nat := 120
/-- A polynomial: 256 coefficients from 0 to q − 1, the lowest degree first. -/
abbrev Poly := List Nat
def polyAdd (a b : Poly) : Poly := List.zipWith (fun x y => (x + y) % dsaQ) a b
def polySub (a b : Poly) : Poly := List.zipWith (fun x y => (x + (dsaQ - y)) % dsaQ) a b
/-- The product of two transformed polynomials. -/
def polyMul (a b : Poly) : Poly := List.zipWith (fun x y => x * y % dsaQ) a b
def polyZero : Poly := List.replicate 256 0
/-- The signed value of a coefficient, and its size. -/
def centred (x : Nat) : Int := if 2 * x < dsaQ then (x : Int) else (x : Int) - (dsaQ : Int)
def polyNorm (a : Poly) : Nat := a.foldl (fun n x => Nat.max n (centred x).natAbs) 0
/-- The eight bits of a number in reverse order. -/
def brv8 (m : Nat) : Nat := (List.range 8).foldl (fun n i => 2 * n + m / 2 ^ i % 2) 0
/-- The root of a butterfly, and its inverse. -/
def zeta (m : Nat) : Nat := 1753 ^ brv8 m % dsaQ
def zetaInv (m : Nat) : Nat := 1753 ^ (512 - brv8 m) % dsaQ
/-- The transform of 2^n coefficients whose butterfly is number m, and its inverse but for the factor. -/
def nttFrom : Nat → Nat → Poly → Poly
  | 0, _, w => w
  | n + 1, m, w =>
    let lo := w.take (2 ^ n)
    let t := (w.drop (2 ^ n)).map (fun x => x * zeta m % dsaQ)
    nttFrom n (2 * m) (polyAdd lo t) ++ nttFrom n (2 * m + 1) (polySub lo t)
def invNttFrom : Nat → Nat → Poly → Poly
  | 0, _, w => w
  | n + 1, m, w =>
    let lo := invNttFrom n (2 * m) (w.take (2 ^ n))
    let hi := invNttFrom n (2 * m + 1) (w.drop (2 ^ n))
    polyAdd lo hi ++ (polySub lo hi).map (fun x => x * zetaInv m % dsaQ)
def ntt (w : Poly) : Poly := nttFrom 8 1 w
def invNtt (w : Poly) : Poly := (invNttFrom 8 1 w).map (fun x => x * 8347681 % dsaQ)
/-- A matrix times a vector, both transformed. -/
def matVec (a : List (List Poly)) (v : List Poly) : List Poly :=
  a.map (fun row => (List.zipWith polyMul row v).foldl polyAdd polyZero)
/-- d bits for each of 256 coefficients, packed from the lowest bit up, and read back. -/
def polyPack (d : Nat) (w : Poly) : List Byte := natBytes (32 * d) (w.foldr (fun x n => x + 2 ^ d * n) 0)
def polyUnpack (d : Nat) (bs : List Byte) : Poly :=
  let n := leNat bs
  (List.range 256).map (fun i => n / 2 ^ (d * i) % 2 ^ d)
/-- The first k pieces of n bytes. -/
def partsOf (n : Nat) : Nat → List Byte → List (List Byte)
  | 0, _ => []
  | k + 1, bs => bs.take n :: partsOf n k (bs.drop n)
/-- b − x: the coefficient of a packed x, and the packing of a coefficient x. -/
def fromTop (b x : Nat) : Nat := (b + (dsaQ - x)) % dsaQ
/-- The candidates below q of a stream of three-byte numbers. -/
def rejThree : List Byte → List Nat
  | a :: b :: c :: rest =>
    let z := a.toNat + 256 * b.toNat + 65536 * (c.toNat % 128)
    if z < dsaQ then z :: rejThree rest else rejThree rest
  | _ => []
/-- The matrix of a seed, transformed. The stream is bounded far above what it takes. -/
def expandA (rho : List Byte) : List (List Poly) :=
  (List.range dsaK).map (fun r => (List.range dsaL).map (fun s =>
    (rejThree (shake128 (rho ++ [BitVec.ofNat 8 s, BitVec.ofNat 8 r]) 1512)).take 256))
/-- A short polynomial of a seed, with coefficients from −2 to 2. -/
def rejShort (seed : List Byte) (i : Nat) : Poly :=
  (((shake256 (seed ++ natBytes 2 i) 544).flatMap (fun b => [b.toNat % 16, b.toNat / 16])).filterMap (fun x =>
    if x < 15 then some ((2 + (dsaQ - x % 5)) % dsaQ) else none)).take 256
/-- The challenge of a digest: `signs` are its sign bits, the bytes choose the places. -/
def ballFrom (signs : Nat) : Nat → List Byte → Poly → Poly
  | _, [], c => c
  | i, b :: bs, c =>
    if 256 ≤ i then c
    else if i < b.toNat then ballFrom signs i bs c
    else ballFrom signs (i + 1) bs ((c.set i (c.getD b.toNat 0)).set b.toNat
      (if bitOf signs (i + dsaTau - 256) then dsaQ - 1 else 1))
def sampleInBall (ct : List Byte) : Poly :=
  let bs := shake256 ct 1088
  ballFrom (leNat (bs.take 8)) (256 - dsaTau) (bs.drop 8) polyZero
/-- High and low bits of a coefficient. -/
def decompose (r : Nat) : Nat × Int :=
  let m := r % (2 * dsaGamma2)
  let r0 : Int := if dsaGamma2 < m then (m : Int) - (2 * dsaGamma2 : Nat) else m
  let h := ((r : Int) - r0).toNat
  if h = dsaQ - 1 then (0, r0 - 1) else (h / (2 * dsaGamma2), r0)
/-- High bits corrected by a hint. -/
def useHint (h : Bool) (r : Nat) : Nat :=
  let (r1, r0) := decompose r
  if !h then r1 else if 0 < r0 then (r1 + 1) % 16 else (r1 + 15) % 16
/-- The places of one row of a hint: rising, from a list of bytes. -/
def hintRow : List Byte → Option (List Nat)
  | [] => some []
  | [a] => some [a.toNat]
  | a :: b :: rest => if a.toNat < b.toNat then (hintRow (b :: rest)).map (fun l => a.toNat :: l) else none
/-- A hint's rows, from the list of places and the end of each row. -/
def hintRows (ys : List Byte) : Nat → List Byte → Option (List (List Nat))
  | i, [] => if (ys.drop i).all (fun y => y == 0) then some [] else none
  | i, e :: ends =>
    if e.toNat < i ∨ dsaOmega < e.toNat then none
    else match hintRow ((ys.drop i).take (e.toNat - i)), hintRows ys e.toNat ends with
      | some r, some rs => some (r :: rs)
      | _, _ => none
def hintUnpack (bs : List Byte) : Option (List (List Bool)) :=
  (hintRows (bs.take dsaOmega) 0 ((bs.drop dsaOmega).take dsaK)).map (fun rows =>
    rows.map (fun r => (List.range 256).map r.contains))
def hintPack (hs : List (List Bool)) : List Byte :=
  let rows := hs.map (fun h => (List.range 256).filter (fun i => h.getD i false))
  let ends := (rows.foldl (fun (acc : Nat × List Nat) r => (acc.1 + r.length, acc.2 ++ [acc.1 + r.length])) (0, [])).2
  let ys := rows.flatten
  (ys ++ List.replicate (dsaOmega - ys.length) 0 ++ ends).map (BitVec.ofNat 8)
/-- The message representative of a pure signature with an empty context string. -/
def dsaMu (tr m : List Byte) : List Byte := shake256 (tr ++ [0, 0] ++ m) 64
/-- Whether a signature of a message is valid for a public key. -/
@[irreducible] def mldsaVerify (pk m sig : List Byte) : Bool :=
  if pk.length ≠ 2592 ∨ sig.length ≠ 4627 then false else
  let ct := sig.take 64
  let z := (partsOf 640 dsaL (sig.drop 64)).map (fun b => (polyUnpack 20 b).map (fromTop dsaGamma1))
  match hintUnpack (sig.drop (64 + 640 * dsaL)) with
  | none => false
  | some h =>
    let t1 := (partsOf 320 dsaK (pk.drop 32)).map (polyUnpack 10)
    let c := ntt (sampleInBall ct)
    let az := matVec (expandA (pk.take 32)) (z.map ntt)
    let w := List.zipWith (fun x t => invNtt (polySub x (polyMul c (ntt (t.map (fun y => y * 2 ^ dsaD % dsaQ)))))) az t1
    let w1 := List.zipWith (fun hs ws => List.zipWith useHint hs ws) h w
    z.all (fun p => polyNorm p < dsaGamma1 - dsaBeta) &&
      shake256 (dsaMu (shake256 pk 64) m ++ w1.flatMap (polyPack 4)) 64 == ct
/-- The key of a seed: the public seed, the private seed, the short vectors, and t with its dropped bits. -/
structure DsaKey where
  rho : List Byte
  key : List Byte
  s1 : List Poly
  s2 : List Poly
  t1 : List Poly
  t0 : List Poly
  deriving DecidableEq, Repr
def dsaKey (xi : List Byte) : DsaKey :=
  let b := shake256 (xi ++ [BitVec.ofNat 8 dsaK, BitVec.ofNat 8 dsaL]) 128
  let short (i : Nat) : Poly := rejShort ((b.drop 32).take 64) i
  let s1 := (List.range dsaL).map short
  let s2 := (List.range dsaK).map (fun i => short (dsaL + i))
  let t := List.zipWith (fun x s => polyAdd (invNtt x) s) (matVec (expandA (b.take 32)) (s1.map ntt)) s2
  let hi (x : Nat) : Nat := (x + 2 ^ (dsaD - 1) - 1) / 2 ^ dsaD
  { rho := b.take 32, key := b.drop 96, s1 := s1, s2 := s2, t1 := t.map (fun p => p.map hi)
    t0 := t.map (fun p => p.map (fun x => (x + (dsaQ - hi x * 2 ^ dsaD % dsaQ)) % dsaQ)) }
/-- The bytes of the public key. -/
def DsaKey.pk (k : DsaKey) : List Byte := k.rho ++ k.t1.flatMap (polyPack 10)
/-- The public key of a 32-byte seed. -/
@[irreducible] def mldsaPublic (xi : List Byte) : List Byte := (dsaKey xi).pk
/-- One attempt at a signature, from the mask number n on. -/
def signOnce (k : DsaKey) (mu rho2 : List Byte) (n : Nat) : Option (List Byte) :=
  let y := (List.range dsaL).map (fun r => (polyUnpack 20 (shake256 (rho2 ++ natBytes 2 (n + r)) 640)).map (fromTop dsaGamma1))
  let w := (matVec (expandA k.rho) (y.map ntt)).map invNtt
  let ct := shake256 (mu ++ w.flatMap (fun p => polyPack 4 (p.map (fun x => (decompose x).1)))) 64
  let c := ntt (sampleInBall ct)
  let times (v : List Poly) : List Poly := v.map (fun p => invNtt (polyMul c (ntt p)))
  let z := List.zipWith polyAdd y (times k.s1)
  let u := List.zipWith polySub w (times k.s2)
  let ct0 := times k.t0
  let h := List.zipWith (fun a b => List.zipWith (fun x t => (decompose x).1 != (decompose ((x + t) % dsaQ)).1) a b) u ct0
  let ones := (h.map (fun r => (r.filter (fun x => x)).length)).foldl (· + ·) 0
  if z.any (fun p => dsaGamma1 - dsaBeta ≤ polyNorm p) || u.any (fun p => p.any (fun x =>
      dsaGamma2 - dsaBeta ≤ (decompose x).2.natAbs)) || ct0.any (fun p => dsaGamma2 ≤ polyNorm p) || dsaOmega < ones then none
  else some (ct ++ z.flatMap (fun p => polyPack 20 (p.map (fromTop dsaGamma1))) ++ hintPack h)
/-- Attempts until one succeeds; the first argument bounds their number. -/
def signFrom (k : DsaKey) (mu rho2 : List Byte) : Nat → Nat → List Byte
  | 0, _ => []
  | n + 1, i => match signOnce k mu rho2 i with
    | some b => b
    | none => signFrom k mu rho2 n (i + dsaL)
/-- The signature of a message by the key of a seed, with 32 bytes of the signer's choice. -/
@[irreducible] def mldsaSign (xi m rnd : List Byte) : List Byte :=
  let k := dsaKey xi
  let mu := dsaMu (shake256 k.pk 64) m
  signFrom k mu (shake256 (k.key ++ rnd ++ mu) 64) 4096 0

end Sys2Proof.Machine
end

