-- ==== Sys2Proof/Machine/MemoryUnit.lean ====
section
/-! DEFINITION. Memory, remote and atomic instructions, fences, prefetch and windows (R129 to R149), with the steps of
posted accesses and of remote requests (R29, R140, R261, R268). -/

namespace Sys2Proof.Machine

/-! ## Global loads and stores (R132 to R134) -/

/-- Whether some piece of a checked access lies on a UN page. -/
def State.onUn (s : State) (ea n : Nat) : Bool :=
  !s.untranslated && (pieceStarts ea n).any (fun a => ((s.leafFor s.run.ctx a).map leafKind).getD 0 == 2)
/-- An access on an SO page while an earlier one of the task is still to be performed (R265). -/
def State.behindSeq (s : State) (ls : List Loc) : Bool := ls.any Loc.so && s.soAhead s.fresh
/-- Physical addresses of places; none when some place is not in physical memory. -/
def physOf (ls : List Loc) : Option (List Nat) :=
  ls.mapM (fun l => match l with | .phys pa _ => some pa | _ => none)
/-- A load or atomic of one of these bytes that is still to be performed, posted or held (R31, R136). -/
def State.readAhead (s : State) (pas : List Nat) : Bool :=
  s.run.flight.any (fun f => !f.performed && f.op.reads && f.op.pas.any (fun a => pas.contains a)) ||
    s.run.held.any (fun e => (locPas e.cmd.readLocs).any (fun a => pas.contains a))
/-- A load or atomic that is posted rather than performed at once: some byte lies outside the module, an SO access or a
read of its bytes is ahead of it, or it is not naturally aligned and so performed in parts (R131).
(DEDUCED, log 16). -/
def State.posts (s : State) (ea n : Nat) (ls : List Loc) : Bool :=
  ls.any Loc.far || s.behindSeq ls || s.readAhead (locPas ls) || ea % n != 0
/-- Emptying the combining buffer when it holds one of these bytes, so that a posted read follows the store (R133). -/
def State.drainFor (s : State) (pas : List Nat) : State :=
  if pas.any (fun pa => (combGet s.run.comb pa).isSome) then s.drainComb else s
/-- The effect of a checked global load (R132, R133); a posted one has a part for each byte or is one part (R131). -/
def State.loadGlobal (s : State) (wd : LdW) (d : GReg) (ea : Word) (ls : List Loc) : State :=
  match s.posts ea.toNat wd.size ls, physOf ls with
  | true, some pas =>
    let s := s.drainFor pas
    let i := s.here [0]
    let grp := s.fresh
    (scalarParts ea.toNat wd.size (ls.zip pas).zipIdx).foldl (fun s x =>
      s.post i grp 0 (x.any (fun y => y.1.1.so)) (ea + BitVec.ofNat 64 ((x.head?.map (fun y => y.2)).getD 0))
        (.load wd d (x.map (fun y => y.1.2)))) s
  | _, _ => s.setG d (wd.extend (s.bytesAt ls))
/-- The checks of a global access that R131 and R134 add for aligned forms: ALIGN, R130, KIND. -/
def State.alignedTrap (s : State) (ea : Word) (n : Nat) (need : Need) : Option TrapAt :=
  if ea.toNat % n ≠ 0 then some { trap := .align, addr := ea }
  else match s.globalTrap ea n need with
    | some t => some t
    | none => if s.onUn ea.toNat n then some { trap := .kind, addr := ea } else none
/-- POISON at the first poisoned byte of a read (R361, R366), else the body. -/
def State.unlessPoison (s : State) (base : Word) (ls : List Loc) (k : State → State) : State :=
  match s.firstPoison ls with
  | some i => ((ls[i]?).elim s s.consumed).trap .poison (poisonAddr base i)
  | none => k s
/-- A load after its checks: waiting for held commands, poison, the page touched, the effect. -/
def State.loadChecked (s : State) (wd : LdW) (d : GReg) (ea : Word) : State :=
  let ls := s.locs ea.toNat wd.size
  s.needs (locRes ls) [] (fun s => s.unlessPoison ea ls (fun s =>
    ((s.touchAll ea.toNat wd.size false).loadGlobal wd d ea ls).retire 12))
/-- LD (R132). -/
def execLd (h : Hdr) (wd : LdW) (d a : GReg) (off : BitVec 32) (s : State) : Host.Outcome State Fault Refusal :=
  checkedStep h 12 (fun s =>
    match s.globalTrap (s.ea a off) wd.size needR with
    | some t => s.accessTrap t s.r.pc
    | none => s.loadChecked wd d (s.ea a off)) s
/-- Marking the posted loads of an instruction as an LD.AQ. -/
def State.markAcq (s : State) (pc : Word) : State :=
  { s with run := { s.run with flight := updWhere (fun f => f.by_.pc = pc && f.returns) (fun f => { f with acq := true }) s.run.flight } }
/-- LD.AQ (R132, R134): nothing follows it before its data return, because the core waits for them. -/
def execLdAq (h : Hdr) (wd : LdW) (d a : GReg) (off : BitVec 32) (s : State) : Host.Outcome State Fault Refusal :=
  checkedStep h 12 (fun s =>
    match s.alignedTrap (s.ea a off) wd.size needR with
    | some t => s.accessTrap t s.r.pc
    | none => (s.loadChecked wd d (s.ea a off)).markAcq s.r.pc) s
/-- A store after its checks. -/
def State.storeChecked (s : State) (wd : StW) (b : GReg) (ea : Word) : State :=
  let ls := s.locs ea.toNat wd.size
  s.needs [] (locRes ls) (fun s =>
    let t := s.touchAll ea.toNat wd.size true
    (t.storeAt (t.here [1]) (ea.toNat % wd.size != 0) false
      (scalarParts ea.toNat wd.size (storeBytes ea ls (natBytes wd.size (s.g b).toNat)))).retire 12)
/-- ST (R132). -/
def execSt (h : Hdr) (wd : StW) (b a : GReg) (off : BitVec 32) (s : State) : Host.Outcome State Fault Refusal :=
  checkedStep h 12 (fun s =>
    match s.globalTrap (s.ea a off) wd.size needW with
    | some t => s.accessTrap t s.r.pc
    | none => s.storeChecked wd b (s.ea a off)) s

/-! ## Waiting for earlier accesses (R134, R144, R145) -/

/-- The mask bit of R144 that a command's global or buffer accesses belong to. -/
def VCmd.kindBit : VCmd → Option Nat
  | .vload .. => some 0 | .vgath .. => some 0
  | .vstore .. => some 1 | .vscat .. => some 1
  | .tld .. => some 4 | .cld .. => some 4
  | .tst .. => some 5 | .cst .. => some 5
  | _ => none
/-- Whether a held command's accesses are among those of a mask. -/
def QEntry.kindIn (e : QEntry) (mask : Nat) : Bool := (e.cmd.kindBit.map (bitOf mask)).getD false
/-- Whether a command accesses memory or a buffer: those of the kinds of R144, and the summary commands, which R144 does
not list and which only a release of every earlier access covers (R134, R210, R263). -/
def VCmd.accesses (c : VCmd) : Bool :=
  match c with
  | .skinit .. => true
  | .skadd .. => true
  | .skmerge .. => true
  | _ => c.kindBit.isSome
/-- A held command that is a predecessor of a FENCE: its own guard is resolved, or it has none (R145). -/
def QEntry.pred (e : QEntry) (mask : Nat) : Bool := e.guard.isNone && e.kindIn mask
/-- The mask bits of a job's accesses (R144). -/
def JobKind.bits : JobKind → List Nat
  | .copy => [2, 3] | .tap _ => [2, 3] | .txe => [6] | .txd => [6] | .vocab => [6] | .coll => [6]
/-- A job of the running task that has been issued, is a predecessor and has not finished. A guarded job whose generation
is unresolved, and a COLL whose segment has not committed, have not been issued (R145, R208, R215). -/
def State.pendingJobs (s : State) (mask : Nat) : List Job :=
  s.mod.jobs.filter (fun j => j.task == s.run.task && j.st != .done && j.st != .guarded && j.st != .deferred &&
    j.kind.bits.any (fun i => bitOf mask i))
/-- Whether such a job exists. -/
def State.jobPending (s : State) (mask : Nat) : Bool := !(s.pendingJobs mask).isEmpty
/-- Whether a job that a FENCE waits for waits itself for a held command before it, which nothing can release (R126,
R210). -/
def State.jobBlocked (s : State) (mask : Nat) : Bool :=
  (s.pendingJobs mask).any (fun j => s.run.held.any (fun e => e.cmd.accesses && decide (e.seq < j.by_.ord)))
/-- The bits of R144 of a remote request; an MCST is a store. -/
def RemOp.bits : RemOp → List Nat
  | .load .. => [0] | .store _ => [1] | .amo .. => [0, 1]
/-- Accesses on their way that belong to the kinds of a mask (R145). -/
def State.flightPreds (s : State) (mask : Nat) : List Flight :=
  s.run.flight.filter (fun f => f.by_.bits.any (fun i => bitOf mask i))
/-- Whether a remote request of such a kind is unanswered. -/
def State.requestPred (s : State) (mask : Nat) : Bool := s.run.out.any (fun q => (RemOp.bits q.op).any (fun i => bitOf mask i))
/-- Waiting until the predecessor kinds of a mask have been performed: the combining buffer drains when stores or matrix
writes are among them; while an access of such a kind is on its way the scalar stream stalls here; a held command that is
a predecessor, or that such an access waits for, blocks it. `all` says that every earlier access of the streams counts, of
commands whose generation is unresolved and of summary commands too: for ST.RL and the offers of a try, but not for FENCE
(R134, R145, R155, R263, R264). -/
def State.settle (s : State) (mask : Nat) (all : Bool) (k : State → State) : State :=
  let s := if bitOf mask 1 || bitOf mask 5 then s.drainComb else s
  if s.run.held.any (fun e => e.pred mask || (all && e.cmd.accesses)) then s.deadlock
  else if (s.flightPreds mask).any s.run.stuck then s.deadlock
  else if !(s.flightPreds mask).isEmpty || s.requestPred mask then s
  else if s.jobPending mask then (if s.jobBlocked mask then s.deadlock else s)
  else k s
/-- ST.RL (R132, R134). -/
def execStRl (h : Hdr) (wd : StW) (b a : GReg) (off : BitVec 32) (s : State) : Host.Outcome State Fault Refusal :=
  checkedStep h 12 (fun s =>
    match s.alignedTrap (s.ea a off) wd.size needW with
    | some t => s.accessTrap t s.r.pc
    | none => s.settle 0x33 true (fun s => s.storeChecked wd b (s.ea a off))) s
/-- FSTAT after a fence (R35, R146). -/
def fstatWord (lost : List Nat) : Word :=
  match lost with
  | [] => 0
  | x :: xs => BitVec.ofNat 64 (xs.foldl Nat.min x * 2 ^ 8 + Status.code .peerFailed)
/-- Failed parties that a fence reports: at SYS scope, those to which accesses of a predecessor kind were lost, by the task
itself or by its jobs (R146). -/
def State.fenceLost (s : State) (scope : Scope) (mask : Nat) : List Nat :=
  let jobs := (s.mod.jobs.filter (fun j => j.task == s.run.task)).flatMap (fun j => j.lost)
  if scope = .sys then ((s.run.lost ++ jobs).filter (fun x => bitOf mask x.2)).map (fun x => x.1) else []
/-- FENCE (R144 to R146). Successor kinds need nothing more: the scalar stream issues them only after this. -/
def execFence (h : Hdr) (scope : Scope) (pred _succ : BitVec 7) (s : State) : Host.Outcome State Fault Refusal :=
  checkedStep h 8 (fun s => s.settle pred.toNat false (fun s =>
    let lost := s.fenceLost scope pred.toNat
    (({ s with r := { s.r with fstat := fstatWord lost } }).setP 1 lost.isEmpty).retire 8)) s

/-! ## Typed buffers (R138) -/

/-- LDS (R138). -/
def execLds (h : Hdr) (buf : Buf) (wd : LdW) (d a : GReg) (off : BitVec 32) (s : State) : Host.Outcome State Fault Refusal :=
  checkedStep h 12 (fun s =>
    let ea := s.ea a off
    match s.bufTrap buf ea wd.size wd.size with
    | some t => s.trap t.trap t.addr
    | none =>
      let ls := bufLocs buf ea.toNat wd.size
      s.needs [.buf buf ea.toNat wd.size] [] (fun s => s.unlessPoison (typedAddr buf ea) ls (fun s =>
        (s.setG d (wd.extend (s.bufRead buf ea.toNat wd.size))).retire 12))) s
/-- STS (R138). -/
def execSts (h : Hdr) (buf : Buf) (wd : StW) (b a : GReg) (off : BitVec 32) (s : State) : Host.Outcome State Fault Refusal :=
  checkedStep h 12 (fun s =>
    let ea := s.ea a off
    match s.bufTrap buf ea wd.size wd.size with
    | some t => s.trap t.trap t.addr
    | none => s.needs [] [.buf buf ea.toNat wd.size] (fun s =>
        (s.bufWrite buf ea.toNat (natBytes wd.size (s.g b).toNat)).retire 12)) s

/-! ## Atomics (R135, R136) -/

/-- Whether a checked atomic lies on a page backed by host memory (R136). -/
def State.hostBacked (s : State) (ea : Nat) : Bool :=
  match s.locOf ea with
  | .phys pa _ => !inVault pa && Config.backing (pa / 2 ^ 16) == 0xFFFF
  | _ => false
/-- Whether host memory performs an operation: add and swap (R136). -/
def hostAmo : AmoOp → Bool
  | .add => true | .swap => true | _ => false
/-- The checks of AMO and CAS (R131, R136); `host` says that host memory performs the operation. -/
def State.amoTrap (s : State) (ea : Word) (n : Nat) (host : Bool) : Option TrapAt :=
  match s.alignedTrap ea n needAmo with
  | some t => some t
  | none => if !host && s.hostBacked ea.toNat then some { trap := .kind, addr := ea } else none
/-- Storing at once at places. -/
def State.storeAllNow (s : State) (ls : List Loc) (bs : List Byte) : State :=
  (ls.zip bs).foldl (fun s x => s.storeNow x.1 x.2) s
/-- The effect of a checked atomic: posted, or performed at once with `f` giving the bytes written from the old value,
if any (R135). -/
def State.atomic (s : State) (dbl : Bool) (d : GReg) (ea : Word) (ls : List Loc) (op : List Nat → FlightOp)
    (f : Word → Option Word) : State :=
  match physOf ls with
  | some pas =>
    let s := s.drainFor pas
    if s.posts ea.toNat (amoSize dbl) ls || s.onItsWay pas then s.post (s.here [0, 1]) s.fresh 0 (ls.any Loc.so) ea (op pas)
    else
      let old : Word := BitVec.ofNat 64 (leNat (s.bytesAt ls))
      let t := match f old with
        | some x => s.storeAllNow ls (natBytes (amoSize dbl) x.toNat)
        | none => s
      t.setG d (amoOld dbl old)
  | none =>
    let old : Word := BitVec.ofNat 64 (leNat (s.bytesAt ls))
    let t := match f old with
      | some x => s.storeAllNow ls (natBytes (amoSize dbl) x.toNat)
      | none => s
    t.setG d (amoOld dbl old)
/-- An atomic instruction after its own check. The page counts as written, D and the bitmap bit set, whether or not a CAS
then writes (R135, R337; DESIGN CHOICE, log 41). -/
def State.atomicChecked (s : State) (dbl : Bool) (d : GReg) (ea : Word) (op : List Nat → FlightOp)
    (f : Word → Option Word) : State :=
  let n := amoSize dbl
  let ls := s.locs ea.toNat n
  s.needs (locRes ls) (locRes ls) (fun s => s.unlessPoison ea ls (fun s =>
    ((s.touchAll ea.toNat n true).atomic dbl d ea ls op f).retire 12))
/-- AMO of an operation (R135). -/
def amoStep (op : AmoOp) (h : Hdr) (dbl : BitVec 1) (d a b : GReg) (off : BitVec 32) (s : State) : Host.Outcome State Fault Refusal :=
  checkedStep h 12 (fun s =>
    let ea := s.ea a off
    let w := dbl == 1
    match s.amoTrap ea (amoSize w) (hostAmo op) with
    | some t => s.accessTrap t s.r.pc
    | none => s.atomicChecked w d ea (fun pas => .amo op w (s.g b) d pas) (fun old => some (amoNew op w old (s.g b)))) s
/-- Whether CAS writes: the compared value on its width (R135). -/
def casHit (dbl : Bool) (old cmp : Word) : Bool := zextN (8 * amoSize dbl) old == zextN (8 * amoSize dbl) cmp
/-- CAS (R135). -/
def execCas (h : Hdr) (dbl : BitVec 1) (d a b c : GReg) (off : BitVec 32) (s : State) : Host.Outcome State Fault Refusal :=
  checkedStep h 12 (fun s =>
    let ea := s.ea a off
    let w := dbl == 1
    match s.amoTrap ea (amoSize w) true with
    | some t => s.accessTrap t s.r.pc
    | none => s.atomicChecked w d ea (fun pas => .cas w (s.g b) (s.g c) d pas)
        (fun old => if casHit w old (s.g b) then some (s.g c) else none)) s

/-- AMO.ADD (R135). -/
def execAmoAdd (h : Hdr) (dbl : BitVec 1) (d a b : GReg) (off : BitVec 32) (s : State) : Host.Outcome State Fault Refusal :=
  amoStep .add h dbl d a b off s

/-- AMO.AND (R135). -/
def execAmoAnd (h : Hdr) (dbl : BitVec 1) (d a b : GReg) (off : BitVec 32) (s : State) : Host.Outcome State Fault Refusal :=
  amoStep .and h dbl d a b off s

/-- AMO.OR (R135). -/
def execAmoOr (h : Hdr) (dbl : BitVec 1) (d a b : GReg) (off : BitVec 32) (s : State) : Host.Outcome State Fault Refusal :=
  amoStep .or h dbl d a b off s

/-- AMO.XOR (R135). -/
def execAmoXor (h : Hdr) (dbl : BitVec 1) (d a b : GReg) (off : BitVec 32) (s : State) : Host.Outcome State Fault Refusal :=
  amoStep .xor h dbl d a b off s

/-- AMO.MIN (R135). -/
def execAmoMin (h : Hdr) (dbl : BitVec 1) (d a b : GReg) (off : BitVec 32) (s : State) : Host.Outcome State Fault Refusal :=
  amoStep .min h dbl d a b off s

/-- AMO.MAX (R135). -/
def execAmoMax (h : Hdr) (dbl : BitVec 1) (d a b : GReg) (off : BitVec 32) (s : State) : Host.Outcome State Fault Refusal :=
  amoStep .max h dbl d a b off s

/-- AMO.MINU (R135). -/
def execAmoMinu (h : Hdr) (dbl : BitVec 1) (d a b : GReg) (off : BitVec 32) (s : State) : Host.Outcome State Fault Refusal :=
  amoStep .minu h dbl d a b off s

/-- AMO.MAXU (R135). -/
def execAmoMaxu (h : Hdr) (dbl : BitVec 1) (d a b : GReg) (off : BitVec 32) (s : State) : Host.Outcome State Fault Refusal :=
  amoStep .maxu h dbl d a b off s

/-- AMO.SWAP (R135). -/
def execAmoSwap (h : Hdr) (dbl : BitVec 1) (d a b : GReg) (off : BitVec 32) (s : State) : Host.Outcome State Fault Refusal :=
  amoStep .swap h dbl d a b off s


/-! ## Remote access (R29, R139 to R143) -/

/-- The window rights of a request (R139). -/
def remRight : RemOp → Nat
  | .load .. => 57 | .store _ => 58 | .amo .. => 59
/-- Bytes of a request's access. -/
def remSize : RemOp → Nat
  | .load wd _ => wd.size | .store bs => bs.length | .amo _ dbl _ _ => amoSize dbl
/-- Whether a window admits an access of the right at bit `r` (R28, R29). -/
def winAdmits (w : Word) (buf : Buf) (r off n : Nat) (member : Nat → Bool) : Bool :=
  let x := w.toNat
  let base := bits x 28 14 * 16
  let len := bits x 43 29 * 16
  bitOf x 63 && bits x 61 60 == buf.code && bitOf x r && (bitOf x 62 || member (bits x 55 44)) &&
    len != 0 && base ≤ off && off + n ≤ base + len
/-- Whether a rank is a member of a group row of its launch in a context (R9, R29). -/
def State.inRow (s : State) (ctx row : Nat) (k : RankKey) : Bool :=
  ((s.ctx ctx).map (fun c => c.groups.any (fun g => g.row == row && g.launch == k.launch && g.ranks.contains k.rank))).getD
    false
/-- Whether a target rank's windows admit a request (R29). -/
def State.admits (s : State) (q : RemoteReq) : Bool :=
  match s.getRank q.tgt with
  | none => false
  | some k => k.wins.toList.any (fun w => winAdmits w q.buf (remRight q.op) q.off (remSize q.op)
      (fun row => s.inRow k.ctx row q.src.rank))
/-- The core that a rank is bound to. -/
def State.coreOf (s : State) (k : RankKey) : Nat := ((s.rankEntry k).map (fun r => r.core)).getD 0
/-- The next sequence number of a source (R323). -/
def State.seqOf (s : State) (source : Nat) : Nat := ((s.mod.seqs.find? (fun x => x.1 = source)).map (fun x => x.2)).getD 0
/-- A source has used its sequence number. -/
def State.bumpSeq (s : State) (source : Nat) : State :=
  { s with mod := { s.mod with seqs := (source, (s.seqOf source + 1) % 2 ^ 32) :: s.mod.seqs.filter (fun x => x.1 ≠ source) } }
/-- Sending a request: it takes a credit and its source's next number, and is owed to its target (R139, R143, R323). -/
def State.sendRemote (s : State) (q : RemoteReq) : State :=
  let q := { q with seq := s.seqOf q.src.core }
  let s := s.bumpSeq q.src.core
  (({ s with run := { s.run with out := s.run.out ++ [q], credits := s.run.credits + 1 } }).bump).owe (.remoteRequest q)
/-- Credits of a core (R139). -/
def creditCap : Nat := 64
/-- The running task as the sender of a request. -/
def State.sender (s : State) : TaskRef := { task := s.run.task, core := s.core, rank := s.rank.key }
/-- What the issuing core checks of LDX, STX and AMOX (R139), the body after it. -/
def State.remoteChecked (s : State) (buf : Buf) (n : Nat) (b : GReg) (ea : Word) (k : RankKey → State) : State :=
  let rk := (s.g b).toNat
  if ea.toNat % n ≠ 0 then s.trap .align (typedAddr buf ea)
  else if rk / 2 ^ 20 ≠ 0 ∨ s.nrank ≤ rk then s.trap .winNack (s.g b)
  else k { launch := s.rank.key.launch, rank := rk }
/-- A request that stalls the scalar stream until a credit is free; HANDLER_BLOCK in a handler (R141). -/
def remoteStep (h : Hdr) (buf : Buf) (n : Nat) (b a : GReg) (off : BitVec 32) (op : State → RemOp) (s : State) : Host.Outcome State Fault Refusal :=
  checkedStep h 12 (fun s =>
    if s.curHandler then s.trap .handlerBlock
    else s.remoteChecked buf n b (s.ea a off) (fun tgt =>
      if creditCap ≤ s.run.credits then s
      else (s.sendRemote { id := s.fresh, src := s.sender, pc := s.r.pc, tgt := tgt, at_ := s.coreOf tgt, buf := buf,
                           off := (s.ea a off).toNat, op := op s, cast := none }).retire 12)) s
/-- LDX (R139, R140). -/
def execLdx (h : Hdr) (buf : Buf) (wd : LdW) (d b a : GReg) (off : BitVec 32) (s : State) : Host.Outcome State Fault Refusal :=
  remoteStep h buf wd.size b a off (fun _ => .load wd d) s
/-- STX (R139, R140). -/
def execStx (h : Hdr) (buf : Buf) (wd : StW) (b c a : GReg) (off : BitVec 32) (s : State) : Host.Outcome State Fault Refusal :=
  remoteStep h buf wd.size b a off (fun s => .store (natBytes wd.size (s.g c).toNat)) s
/-- STX.T never blocks: without a credit it sets p1 to 0 and sends nothing (R141). -/
def execStxT (h : Hdr) (buf : Buf) (wd : StW) (b c a : GReg) (off : BitVec 32) (s : State) : Host.Outcome State Fault Refusal :=
  checkedStep h 12 (fun s => s.remoteChecked buf wd.size b (s.ea a off) (fun tgt =>
    if creditCap ≤ s.run.credits then (s.setP 1 false).retire 12
    else ((s.sendRemote { id := s.fresh, src := s.sender, pc := s.r.pc, tgt := tgt, at_ := s.coreOf tgt, buf := buf,
                          off := (s.ea a off).toNat, op := .store (natBytes wd.size (s.g c).toNat), cast := none }).setP 1 true).retire 12)) s
/-- AMOX of an operation (R139, R140). -/
def amoxStep (op : AmoOp) (h : Hdr) (buf : Buf) (dbl : BitVec 1) (d b c a : GReg) (off : BitVec 32) (s : State) : Host.Outcome State Fault Refusal :=
  remoteStep h buf (amoSize (dbl == 1)) b a off (fun s => .amo op (dbl == 1) (s.g c) d) s

/-- AMOX.ADD (R139). -/
def execAmoxAdd (h : Hdr) (buf : Buf) (dbl : BitVec 1) (d b c a : GReg) (off : BitVec 32) (s : State) : Host.Outcome State Fault Refusal :=
  amoxStep .add h buf dbl d b c a off s

/-- AMOX.AND (R139). -/
def execAmoxAnd (h : Hdr) (buf : Buf) (dbl : BitVec 1) (d b c a : GReg) (off : BitVec 32) (s : State) : Host.Outcome State Fault Refusal :=
  amoxStep .and h buf dbl d b c a off s

/-- AMOX.OR (R139). -/
def execAmoxOr (h : Hdr) (buf : Buf) (dbl : BitVec 1) (d b c a : GReg) (off : BitVec 32) (s : State) : Host.Outcome State Fault Refusal :=
  amoxStep .or h buf dbl d b c a off s

/-- AMOX.XOR (R139). -/
def execAmoxXor (h : Hdr) (buf : Buf) (dbl : BitVec 1) (d b c a : GReg) (off : BitVec 32) (s : State) : Host.Outcome State Fault Refusal :=
  amoxStep .xor h buf dbl d b c a off s

/-- AMOX.MIN (R139). -/
def execAmoxMin (h : Hdr) (buf : Buf) (dbl : BitVec 1) (d b c a : GReg) (off : BitVec 32) (s : State) : Host.Outcome State Fault Refusal :=
  amoxStep .min h buf dbl d b c a off s

/-- AMOX.MAX (R139). -/
def execAmoxMax (h : Hdr) (buf : Buf) (dbl : BitVec 1) (d b c a : GReg) (off : BitVec 32) (s : State) : Host.Outcome State Fault Refusal :=
  amoxStep .max h buf dbl d b c a off s

/-- AMOX.MINU (R139). -/
def execAmoxMinu (h : Hdr) (buf : Buf) (dbl : BitVec 1) (d b c a : GReg) (off : BitVec 32) (s : State) : Host.Outcome State Fault Refusal :=
  amoxStep .minu h buf dbl d b c a off s

/-- AMOX.MAXU (R139). -/
def execAmoxMaxu (h : Hdr) (buf : Buf) (dbl : BitVec 1) (d b c a : GReg) (off : BitVec 32) (s : State) : Host.Outcome State Fault Refusal :=
  amoxStep .maxu h buf dbl d b c a off s

/-- AMOX.SWAP (R139). -/
def execAmoxSwap (h : Hdr) (buf : Buf) (dbl : BitVec 1) (d b c a : GReg) (off : BitVec 32) (s : State) : Host.Outcome State Fault Refusal :=
  amoxStep .swap h buf dbl d b c a off s


/-- The cluster of a core: eight cores (R212). -/
def clusterOf (core : Nat) : Nat := core / 8
/-- Virtual address of the multicast table's entry i (R33, R142). -/
def State.mctVa (s : State) (i : Nat) : Word :=
  ((s.ctx s.run.ctx).map (fun c => c.mctbase)).getD 0 + BitVec.ofNat 64 (2 * i)
/-- The multicast table's entry i, or the trap of reading it (R142, R361). -/
def State.mctEntry (s : State) (i : Nat) : Sum TrapAt Nat :=
  let va := s.mctVa i
  match s.globalTrap va 2 needR with
  | some t => .inl t
  | none =>
    let ls := s.locs va.toNat 2
    match s.firstPoison ls with
    | some k => .inl { trap := .poison, addr := va + BitVec.ofNat 64 k }
    | none =>
    let e := leNat (s.bytesAt ls)
    if e / 2 ^ 12 ≠ 0 then .inl { trap := .illegal, addr := 0 }
    else if ((s.ctx s.run.ctx).map (fun c => c.clusters.contains e)).getD false then .inr e
    else .inl { trap := .mcPart, addr := 0 }
/-- The clusters a mask names, in order, without repeats, or the first trap (R142). -/
def State.mctClusters (s : State) (mask : Word) : Sum TrapAt (List Nat) :=
  ((List.range 64).filter (fun i => mask.getLsbD i)).foldl (fun acc i =>
    match acc with
    | .inl t => .inl t
    | .inr l => match s.mctEntry i with
      | .inl t => .inl t
      | .inr e => .inr (if l.contains e then l else l ++ [e])) (.inr [])
/-- Ranks of an MCST's launch that are bound to cores of its clusters and that it has not reached, ascending (R142). -/
def State.castLeft (s : State) (q : RemoteReq) (c : Cast) : List RankKey :=
  let here := (s.rank :: s.mod.others.map (fun e => e.rank)) ++ s.mod.ranks
  let l := here.filter (fun k => k.key.launch == q.src.rank.launch && c.clusters.contains (clusterOf k.core) &&
    !c.served.contains k.key)
  sortBy (fun a b => decide (a.rank ≤ b.rank)) ((l.map (fun k => k.key)).eraseDups)
/-- The bytes an MCST delivers (R142). -/
def State.mcstBytes (s : State) (wd : McW) (c : GReg) : List Byte :=
  match wd with
  | .q => natBytes 16 (s.v 0 c).toNat
  | _ => natBytes wd.size (s.g c).toNat
/-- The table pages an MCST reads are touched. -/
def State.mctTouch (s : State) (mask : Word) : State :=
  ((List.range 64).filter (fun i => mask.getLsbD i)).foldl (fun s i => s.touchAll (s.mctVa i).toNat 2 false) s
/-- The places of the table entries that an MCST reads, as far as they translate. -/
def State.mctLocs (s : State) (mask : Word) : List Loc :=
  ((List.range 64).filter (fun i => mask.getLsbD i && (s.globalTrap (s.mctVa i) 2 needR).isNone)).flatMap (fun i =>
    s.locs (s.mctVa i).toNat 2)
/-- A trap of reading the table; a poisoned byte is consumed (R361). -/
def State.mctFault (s : State) (t : TrapAt) : State :=
  (if t.trap = .poison then s.consumed (s.locOf t.addr.toNat) else s).accessTrap t s.r.pc
/-- Whether a held command comes before a read of these places: both are SO accesses, or both read one byte, or an access
on its way that does waits for one. -/
def State.readBlocked (s : State) (ls : List Loc) : Bool :=
  let pas := locPas ls
  s.run.held.any (fun e => (ls.any Loc.so && e.cmd.so) || (locPas e.cmd.readLocs).any (fun a => pas.contains a)) ||
    s.run.flight.any (fun f => s.run.stuck f && ((ls.any Loc.so && f.seq) || f.op.pas.any (fun a => pas.contains a)))
/-- A read that an instruction makes before it retires: it waits for what the held commands write, for the earlier SO
accesses if it is one, for the earlier reads of its bytes, and for a link that is down (R31, R126, R265, R271). -/
def State.readNow (s : State) (ls : List Loc) (k : State → State) : State :=
  s.needs (locRes ls) [] (fun s =>
    if s.behindSeq ls || s.readAhead (locPas ls) then (if s.readBlocked ls then s.deadlock else s)
    else if (locPas ls).any s.waitsLink then s
    else k s)
/-- MCST (R141 to R143): one request, which takes a credit and reaches its ranks by deliveries of their own; the scalar
stream stalls until a credit is free. A request that names no cluster or no rank is acknowledged all the same. -/
def execMcst (h : Hdr) (buf : Buf) (wd : McW) (b c a : GReg) (off : BitVec 32) (s : State) : Host.Outcome State Fault Refusal :=
  checkedStep h 12 (fun s =>
    let ea := s.ea a off
    if s.curHandler then s.trap .handlerBlock
    else if ea.toNat % wd.size ≠ 0 then s.trap .align (typedAddr buf ea)
    else if s.g b = 0 then (s.setStatus .empty 0 0 0).retire 12
    else s.needs (if wd = .q then [.v c.toNat] else []) [] (fun s => s.readNow (s.mctLocs (s.g b)) (fun s =>
      match s.mctClusters (s.g b) with
      | .inl t => s.mctFault t
      | .inr cl =>
        if creditCap ≤ s.run.credits then s
        else (((s.mctTouch (s.g b)).setStatus .occurred 0 0 0).sendRemote
          { id := s.fresh, src := s.sender, pc := s.r.pc, tgt := s.rank.key, at_ := 0, buf := buf, off := ea.toNat,
            op := .store (s.mcstBytes wd c), cast := some { clusters := cl, served := [], refused := [] } }).retire 12))) s

/-! ## Remote requests at their target, and their replies (R29, R140, R270) -/

/-- First poisoned byte offset of a read at a rank's buffer. -/
def State.bufPoisonAt (s : State) (key : RankKey) (b : Buf) (off n : Nat) : Option Nat :=
  (List.range n).findSome? (fun i =>
    if s.mod.bufPoison.contains (key, b, (off + i) / 64) then some (off + i) else none)
/-- The answer to an admitted request, and the state with it performed on the target's buffer. -/
def State.serve (s : State) (q : RemoteReq) : RemAns × State :=
  let n := remSize q.op
  let bs := ((s.getRank q.tgt).map (fun k => (k.buf q.buf).read q.off n)).getD []
  match q.op with
  | .store v => (.ack, s.rankWrite q.tgt q.buf q.off v)
  | .load wd _ =>
    match s.bufPoisonAt q.tgt q.buf q.off n with
    | some o => (.poison o, s)
    | none => (.data (wd.extend bs), s)
  | .amo op dbl v _ =>
    match s.bufPoisonAt q.tgt q.buf q.off n with
    | some o => (.poison o, s)
    | none =>
      let old : Word := BitVec.ofNat 64 (leNat bs)
      (.data (amoOld dbl old), s.rankWrite q.tgt q.buf q.off (natBytes n (amoNew op dbl old v).toNat))
/-- A packet as its source holds it before any refusal. -/
def Packet.fresh (id : Nat) : Packet :=
  { id := id, source := 0, seq := id, cls := .tc0, refusals := 0, backoff := 0, age := 0, promoted := false }
/-- Changing a held packet, at the end of its port's order.
(DEDUCED, log 32). -/
def State.setPacket (s : State) (id : Nat) (f : Packet → Packet) : State :=
  let p := (s.mod.packets.find? (fun p => p.id = id)).getD (Packet.fresh id)
  { s with mod := { s.mod with packets := s.mod.packets.filter (fun p => p.id ≠ id) ++ [f p] } }
/-- The interval of a packet's next backoff: 16 cycles, doubled per refusal, at most 1,024 (R323). -/
def backoffOf (refusals : Nat) : Nat := Nat.min 1024 (16 * 2 ^ refusals)
/-- A packet was refused: its next send follows a backoff and a jitter below the interval, which the spec leaves open
(DESIGN CHOICE, log 9). -/
def Packet.refused (s : State) (p : Packet) : Packet :=
  { p with refusals := p.refusals + 1,
           backoff := backoffOf p.refusals + leNat (s.freeBytes p.id 2) % backoffOf p.refusals }
/-- A request is a packet of its source core, with its own number for the sequence and class TC1 (R323). -/
def Packet.ofRequest (p : Packet) (q : RemoteReq) : Packet := { p with source := q.src.core, seq := q.seq, cls := .tc1 }
/-- A request that a receiver has taken already, by its source and sequence number: a duplicate (R323). -/
def State.takenBefore (s : State) (q : RemoteReq) : Bool := s.mod.taken.contains (q.src.core, q.seq)
/-- The receiver notes a packet that it takes. -/
def State.take (s : State) (q : RemoteReq) : State :=
  { s with mod := { s.mod with taken := (q.src.core, q.seq) :: s.mod.taken } }
/-- A request that its source still holds: it has not been acknowledged. -/
def State.heldRequest (s : State) (id : Nat) : Option RemoteReq :=
  (s.run.out ++ s.run.stale ++ s.mod.others.flatMap (fun e => e.run.out ++ e.run.stale)).find? (fun q => q.id = id)
/-- A request is on its way to its receiver. -/
def State.requestSent (s : State) (id : Nat) : Bool :=
  s.pending.any (fun o => match o with
    | .remoteRequest q => q.id == id
    | _ => false)
/-- The receiver forgets a number once its request is acknowledged and no copy of it is on its way: the source may then use it
again (R323). -/
def State.forgetSeq (s : State) (q : RemoteReq) : State :=
  if (s.heldRequest q.id).isSome || s.requestSent q.id then s
  else { s with mod := { s.mod with taken := s.mod.taken.filter (fun x => x ≠ (q.src.core, q.seq)) } }
/-- Whether a request goes to a core that no longer holds its target: a rank that moved (R321). -/
def State.astray (s : State) (q : RemoteReq) : Bool := (s.rankEntry q.tgt).isSome && q.at_ != s.coreOf q.tgt
/-- A request that reaches the old core of a rank that moved: the forwarding entry sends it on, or, once that is gone, it
is refused, and its source looks up the binding and sends it again. It keeps its place in its source's order (R321). -/
def State.redirect (s : State) (q : RemoteReq) : State :=
  let next := { q with at_ := s.coreOf q.tgt }
  let s := if s.mod.forwards.any (fun f => f.rank == q.tgt && f.core == q.at_) then s
    else s.setPacket q.id (fun p => (p.ofRequest q).refused s)
  { s with pending := .remoteRequest next :: s.pending }
/-- A request arrives: a duplicate is discarded; else it is checked against the windows as they stand, performed or
refused, and answered. An MCST is delivered to one rank after another, in an order left free, to the ranks bound at
delivery; its answer follows the last (R142, R143; DEDUCED, log 17). -/
def State.remoteArrives (s : State) (q : RemoteReq) : State :=
  match q.cast with
  | none =>
    if s.takenBefore q then s.forgetSeq q
    else if s.astray q then s.redirect q
    else
      let s := s.take q
      if s.admits q then
        let (a, t) := s.serve q
        t.owe (.remoteReply { req := q, ans := a })
      else s.owe (.remoteReply { req := q, ans := .nack })
  | some c =>
    if s.takenBefore q then s.forgetSeq q else
    let l := s.castLeft q c
    match l[Config.pick s.tick % l.length]? with
    | none => (s.take q).owe (.remoteReply { req := q, ans := if c.refused.isEmpty then .ack else .nack })
    | some k =>
      let d := { q with tgt := k }
      let ok := s.admits d
      let t := if ok then (s.serve d).2 else s
      let next := { q with cast := some { c with served := k :: c.served
                                                 refused := if ok then c.refused else k.rank :: c.refused } }
      { t with pending := .remoteRequest next :: t.pending }
/-- REMOTE_REQUEST (R29, R140, R270). -/
def execRemoteRequest (s : State) : Host.Outcome State Fault Refusal :=
  match s.doing with
  | some (.remoteRequest q) => .next (s.remoteArrives q)
  | _ => .next s
/-- The rank that refused a request: of an MCST's, the smallest (R366). -/
def refuserOf (q : RemoteReq) : Nat :=
  match q.cast with
  | none => q.tgt.rank
  | some c => c.refused.foldl Nat.min (c.refused.headD 0)
/-- WIN_NACK at a refused request (R140, R366). -/
def State.winNack (s : State) (q : RemoteReq) : State :=
  s.trapAt { trap := .winNack, addr := remoteAddr (refuserOf q) q.buf q.off } q.pc
/-- The first refused request in issue order (R366). -/
def firstNack : List RemoteReq → Option RemoteReq
  | [] => none
  | q :: qs =>
    match firstNack qs with
    | none => some q
    | some r => if r.id < q.id then some r else some q
/-- Once every request of the segment is answered, the refusals of its stores trap WIN_NACK (R23 step 2, R140).
(DEDUCED, log 17). -/
def State.nackCheck (s : State) : State :=
  if s.run.out.isEmpty then
    match firstNack s.run.nacks with
    | some q => s.winNack q
    | none => s
  else s
/-- A reply arrives at its core: the credit returns, and the answer takes effect unless the segment was aborted. The
register that an answer writes is that of the request as the segment holds it: a later instruction may have written it
since. -/
def State.replyArrives (s : State) (p : RemoteRep) : State :=
  let same (q : RemoteReq) : Bool := q.id == p.req.id
  let s : State := { s with run := { s.run with credits := s.run.credits - 1,
                                                stale := s.run.stale.filter (fun q => !same q) }
                            mod := { s.mod with packets := s.mod.packets.filter (fun x => x.id ≠ p.req.id) } }
  match s.run.out.find? same with
  | none => s.forgetSeq p.req
  | some q =>
    let s : State := { s with run := { s.run with out := s.run.out.filter (fun q => !same q) } }
    let s := s.forgetSeq q
    match p.ans, q.op with
    | .data v, _ => (s.setG (RemOp.dest_ q.op) v).nackCheck
    | .ack, _ => s.nackCheck
    | .poison o, _ => (s.countPoison none).trapAt { trap := .poison, addr := typedAddr q.buf (BitVec.ofNat 64 o) } q.pc
    | .nack, .store _ => ({ s with run := { s.run with nacks := s.run.nacks ++ [p.req] } }).nackCheck
    | .nack, _ => s.winNack q
/-- REMOTE_REPLY (R140). -/
def execRemoteReply (s : State) : Host.Outcome State Fault Refusal :=
  match s.doing with
  | some (.remoteReply p) => .next ((s.focus p.req.src.core).replyArrives p)
  | _ => .next s

/-! ## Prefetch (R147) -/

/-- A miss of the focused core on a page joins the walk of its die that is under way for it, or starts one (R339). -/
def State.startWalk (s : State) (ctx page : Nat) : State :=
  let die := s.core / 8192
  let same (w : Walk) : Bool := w.die == die && w.ctx == ctx && w.page == page
  if s.mod.walks.any same then
    { s with mod := { s.mod with walks := updWhere same (fun (w : Walk) => { w with cores := w.cores ++ [s.core] }) s.mod.walks } }
  else
    let w : Walk := { die := die, ctx := ctx, page := page, cores := [s.core] }
    let t : State := { s with mod := { s.mod with walks := s.mod.walks ++ [w] } }
    t.owe (.pageWalk die ctx page)
/-- Walks that a die's walker holds (R339). -/
def walkCap : Nat := 256
/-- Whether a die's walker has begun a walk: it stands among the first of its die, in order of arrival (R339). -/
def State.walkBegun (s : State) (w : Walk) : Bool := ((s.mod.walks.filter (fun x => x.die == w.die)).take walkCap).contains w
/-- PREF starts a walk when no cache serves the address and the page would admit the access; it changes nothing else. -/
def State.prefetch (s : State) (ea : Word) (need : Need) : State :=
  if s.untranslated || ea.toNat / 2 ^ 52 ≠ 0 || (s.cached s.run.ctx ea.toNat).isSome then s
  else match pieceTrap (s.leafFor s.run.ctx ea.toNat need.w) need with
    | some _ => s
    | none =>
      if s.onUn ea.toNat 1 then s else s.startWalk s.run.ctx (ea.toNat / 2 ^ 16)
/-- PREF (R147). -/
def execPref (h : Hdr) (a : GReg) (off : BitVec 32) (s : State) : Host.Outcome State Fault Refusal :=
  scalarStep h 12 (fun s => s.prefetch (s.ea a off) needR) s
/-- PREF.ST (R147). -/
def execPrefSt (h : Hdr) (a : GReg) (off : BitVec 32) (s : State) : Host.Outcome State Fault Refusal :=
  scalarStep h 12 (fun s => s.prefetch (s.ea a off) needW) s
/-- PAGE_WALK: a walk completes, and a valid entry enters the caches of the cores that asked, and of their clusters, as it
stands; one that the walker has not begun waits (R337, R339). -/
def execPageWalk (s : State) : Host.Outcome State Fault Refusal :=
  match s.doing with
  | some (.pageWalk die ctx page) =>
    .next (match s.mod.walks.find? (fun w => w.die == die && w.ctx == ctx && w.page == page) with
      | none => s
      | some w =>
        if !s.walkBegun w then s.owe (.pageWalk die ctx page) else
        let t : State := { s with mod := { s.mod with walks := s.mod.walks.erase w } }
        match walk t.mem (t.ctxRegs ctx).ptbase.toNat (page * 2 ^ 16) with
        | .leaf _ e => t.cacheIn ((w.cores.flatMap coreSites).eraseDups) ctx (page * 2 ^ 16) e
        | _ => t)
  | _ => .next s

/-! ## Windows (R28, R148, R149) -/

/-- Whether R28 accepts a window value. -/
def winOk (w : Word) : Bool :=
  let x := w.toNat
  !bitOf x 56 && bits x 13 0 == 0 &&
    (match bufOfCode (bits x 61 60) with
     | none => false
     | some b => (bits x 28 14 + bits x 43 29) * 16 ≤ b.size)
/-- The windows' values before the segment's first write of each (R149). -/
def noteWin (undo : List (Nat × Word)) (n : Nat) (old : Word) : List (Nat × Word) :=
  if undo.any (fun u => u.1 == n) then undo else undo ++ [(n, old)]
/-- Writing a window register, the value before the segment's first write of it recorded (R149). -/
def State.setWin (s : State) (n : WinNo) (x : Word) : State :=
  let old := s.rank.wins[n.toNat]
  { s with run := { s.run with undo := noteWin s.run.undo n.toNat old },
           rank := { s.rank with wins := s.rank.wins.set n.toNat x } }
/-- The check of a window write: the value, and no write by a visitor (R28, R149). -/
def State.winRefused (s : State) (x : Word) : Bool := !winOk x || s.run.visit.isSome
/-- Whether an end of a copy record is a rank's buffer (R211). -/
def Job.endsAt (j : Job) (at_ : Nat) (k : RankKey) : Bool :=
  let x := fld j.record at_ 8
  x / 2 ^ 62 == 2 && k.launch == j.rank.launch && k.rank == bits x 39 20
/-- Whether a copy row that a rank's windows have admitted is only in part read or written there (R212). -/
def Job.within (j : Job) (k : RankKey) : Bool :=
  let len := fld j.record 16 3
  (match j.kind with | .copy => true | .tap _ => true | _ => false) && j.st != .done &&
    ((j.endsAt 0 k && !j.filled && !j.reads.isEmpty && decide (j.reads.length < len)) ||
      (j.endsAt 8 k && j.filled && !j.left.isEmpty && decide (j.left.length < len)))
/-- A change of a window: accesses admitted earlier are performed before it takes effect. A request is performed where it
is checked; a row of a copy takes longer, and the scalar stream stalls for it (R148, R149). -/
def State.winWrite (s : State) (n : WinNo) (x : Word) : State :=
  if s.winRefused x then s.trap .illegal
  else if s.mod.jobs.any (fun j => j.within s.rank.key) then s
  else (s.setWin n x).retire 8
/-- WINSET (R148, R149). -/
def execWinset (h : Hdr) (n : WinNo) (a : GReg) (s : State) : Host.Outcome State Fault Refusal :=
  checkedStep h 8 (fun s => s.winWrite n (s.g a)) s
/-- WINCLR (R148, R149). -/
def execWinclr (h : Hdr) (n : WinNo) (s : State) : Host.Outcome State Fault Refusal :=
  checkedStep h 8 (fun s => s.winWrite n 0) s

/-! ## Steps of posted accesses (R129, R261, R268) -/

/-- Identifier of the i-th posted access of a core. -/
def State.flightId (s : State) (i : Nat) : Nat := ((s.run.flight[i]?).map (fun f => f.id)).getD 0
/-- GLOBAL_ACCESS_PERFORMED (R261). -/
def execGlobalAccessPerformed (s : State) : Host.Outcome State Fault Refusal :=
  match s.doing with
  | some (.globalAccessPerformed core i) => let t := s.focus core; .next (t.performFlight (t.flightId i))
  | _ => .next s
/-- GLOBAL_ACCESS_REPLY (R129). -/
def execGlobalAccessReply (s : State) : Host.Outcome State Fault Refusal :=
  match s.doing with
  | some (.globalAccessReply core i) => let t := s.focus core; .next (t.answerFlight (t.flightId i))
  | _ => .next s
/-- COMBINING_LINE_TIMEOUT: a line leaves the buffer of its core (R268). -/
def execCombiningLineTimeout (s : State) : Host.Outcome State Fault Refusal :=
  match s.doing with
  | some (.combiningLineTimeout core line) =>
    let t := s.focus core
    match t.run.comb.find? (fun l => l.line = line) with
    | none => .next t
    | some l =>
      let u : State := { t with run := { t.run with comb := t.run.comb.filter (fun x => x.line ≠ line) } }
      .next (u.leaveLine l)
  | _ => .next s

end Sys2Proof.Machine
end

