-- ==== Sys2Proof/Machine/Combine.lean ====
section
/-! DEFINITION. The combined payload of an occurrence (R239). Knots set no floating-point flags. -/

namespace Sys2Proof.Machine

/-- Bytes of an element type (R236). -/
def EvElem.size : EvElem → Nat
  | .raw => 1 | .i8 => 1 | .i32 => 4 | .i64 => 8 | .f32 => 4 | .bf16 => 2 | .f16 => 2
/-- The floating format of an element type. -/
def EvElem.fmt : EvElem → Option FFmt
  | .f32 => some fmtF32 | .bf16 => some fmtBF16 | .f16 => some fmtF16
  | _ => none
/-- Element k of a contribution. -/
def elemAt (w : Nat) (bs : List Byte) (k : Nat) : Nat := leNat ((bs.drop (w * k)).take w)
/-- An element-wise combine of S bytes: `f` gives the combined element from the contributions' elements. -/
def perElem (w size : Nat) (cs : List (List Byte)) (f : List Nat → Nat) : List Byte :=
  (List.range (size / w)).flatMap (fun k => natBytes w (f (cs.map (fun c => elemAt w c k))))
/-- SUM of elements of w bytes, left to right: integers wrap, floating values are held in FP32, rounded at each step, and
converted once at the end (R46, R51, R216, R239). -/
def sumBy (fmt : Option FFmt) (w : Nat) (xs : List Nat) : Nat :=
  match fmt with
  | none => xs.foldl (· + ·) 0 % 2 ^ (8 * w)
  | some f =>
    let wide (x : Nat) : Nat := (fmtF32.ofVal .rne (f.decode x)).bits
    match xs with
    | [] => 0
    | x :: rest => (f.fromF32 (rest.foldl (fun acc y => (add32 acc (wide y)).bits) (wide x))).bits
/-- MIN or MAX of elements of w bytes: integers as signed, floating values as VFMIN and VFMAX (R175, R216, R239). A
lone contribution is the result unchanged, a NaN with its sign and payload (DESIGN CHOICE, log 41). -/
def extBy (isMin : Bool) (fmt : Option FFmt) (w : Nat) (xs : List Nat) : Nat :=
  match xs with
  | [] => 0
  | x :: rest =>
    match fmt with
    | some f => rest.foldl (fun acc y => (fMinMax f isMin acc y).bits) x
    | none =>
      let n := 8 * w
      rest.foldl (fun acc y => if isMin == decide (toSigned n y < toSigned n acc) then y else acc) x
/-- The combined payload that the member of index i receives, from the contributions in ascending rank order (R239).
`pick` is the contribution of PICK's rank; a USER payload comes from its routine (R249) and a drain's from the drainer's
accumulator (R198). -/
def combined (d : Desc) (cs : List (List Byte)) (pick : List Byte) (i : Nat) : List Byte :=
  let w := d.elem.size
  match d.combine with
  | .none => []
  | .pick => pick
  | .sum => perElem w d.bytes cs (sumBy d.elem.fmt w)
  | .min => perElem w d.bytes cs (extBy true d.elem.fmt w)
  | .max => perElem w d.bytes cs (extBy false d.elem.fmt w)
  | .bor => perElem 1 d.bytes cs (fun xs => xs.foldl (· ||| ·) 0)
  | .band => perElem 1 d.bytes cs (fun xs => xs.foldl (· &&& ·) 255)
  | .gather => cs.flatten
  | .exchange => cs.flatMap (fun c => (c.drop (d.bytes / cs.length * i)).take (d.bytes / cs.length))
  | .broadcast => cs.headD []
  | .user => []
  | .drainAdd => []
  | .drainMov => []
/-- Bytes the occurrence writes at a party's payload operand (R150). -/
def Desc.written (d : Desc) (members : Nat) : Nat := if d.combine = .gather then members * d.bytes else d.bytes
/-- The combines that only CDRAIN and CRECV offer (R151). -/
def Combine.drain : Combine → Bool
  | .drainAdd => true | .drainMov => true | _ => false

end Sys2Proof.Machine
end

