-- ==== Sys2Proof/Machine/Records.lean ====
section
/-! DEFINITION. The task records in the record areas of the cores' vaults (R14, R20, R229, R333). -/

namespace Sys2Proof.Machine

/-- A field or a unit of a record: its offset and length, and its bytes by offset in the record; a byte that is not listed
is zero. -/
structure RecUnit where
  off : Nat
  len : Nat
  bytes : List (Nat × Byte)
  deriving DecidableEq, Repr
/-- A unit of plain bytes. -/
def unitOf (off : Nat) (bs : List Byte) : RecUnit := { off := off, len := bs.length, bytes := bs.zipIdx.map (fun x => (off + x.2, x.1)) }
/-- A unit of n bytes held as a memory. -/
def unitOfMem (off n : Nat) (m : Memory) : RecUnit :=
  { off := off, len := n, bytes := (m.slice 0 n).map (fun c => (off + c.1, c.2)) }
/-- The 8 bytes of a footprint region (R14). -/
def Foot.image (f : Foot) : List Byte :=
  natBytes 8 ((match f.buf with | .w => 0 | .a => 1 | .c => 2) + f.base / 16 % 2 ^ 16 * 2 ^ 32 + f.len / 16 % 2 ^ 16 * 2 ^ 48)
/-- The 128 bytes of a task control block (R14): its used regions and valid successors first. -/
def Tcb.image (t : Tcb) : List Byte :=
  let none8 := natBytes 8 3
  natBytes 8 t.entry.toNat ++ natBytes 1 t.prio ++ natBytes 1 (b2n t.handler + 2 * b2n t.gang + 4 * b2n t.migrate) ++ zeros 2 ++
    natBytes 4 t.rank ++ natBytes 8 t.live.toNat ++
    ((t.foot.map Foot.image) ++ List.replicate (4 - t.foot.length) none8).flatten ++
    padTo 8 (t.succ.flatMap (fun n => natBytes 4 (n % 2 ^ 20 + 2 ^ 31))) ++ natBytes 4 t.budget ++ zeros 28 ++
    (List.range 4).flatMap (fun i => natBytes 8 (t.arg.getD i 0).toNat)
/-- The state of R22 in the header of a record (R333), 448 bytes. A slot whose generation is resolved has advanced, and is
unbound. -/
def Regs.header (r : Regs) : List Byte :=
  let w (x : Word) : List Byte := natBytes 8 x.toNat
  let lc (l : Lc) : List Byte := natBytes 4 l.count.toNat ++ natBytes 4 l.reload.toNat ++ w l.s ++ w l.e
  let p : Nat := (List.range 15).foldl (fun n i => n + b2n (r.p.toList.getD (i + 1) false) * 2 ^ (i + 1)) 0
  w r.pc ++ w r.evstat ++ natBytes 2 p ++ (r.m.toList.drop 1).flatMap (fun x => natBytes 2 x.toNat) ++
    r.k.toList.flatMap (fun k => natBytes 4 (k.gen.toNat + b2n k.bound * 2 ^ 16)) ++ lc r.lc[0] ++ lc r.lc[1] ++
    r.mx.toList.flatMap (fun x => natBytes 4 x.toNat) ++ natBytes 1 r.mxflag.toNat ++ natBytes 1 (b2n r.fe) ++
    natBytes 1 r.fpflags.toNat ++ r.q.toList.flatMap (fun q => natBytes 1 q.length) ++ zeros 1 ++
    r.tcfg.toList.flatMap (fun x => natBytes 4 x.toNat) ++ w r.coinseed ++ w r.live ++ w r.fstat ++
    r.q.toList.flatMap (fun q => padTo 64 ((q.take 8).flatMap w))
/-- The live registers of a record: those that a mask selects (R21, R229, R333). -/
def Regs.liveUnits (r : Regs) (mask : Word) : List RecUnit :=
  let on (bit : Nat) (u : RecUnit) : Option RecUnit := if mask.getLsbD bit then some u else none
  (r.g.toList.zipIdx).filterMap (fun x => on x.2 (unitOf (0x1C0 + 8 * x.2) (natBytes 8 x.1.toNat))) ++
  (r.v.toList.zipIdx).filterMap (fun x => on (if x.2 < 16 then 32 + x.2 else 48 + (x.2 - 16) / 2)
    (if x.1 = 0 then { off := 0x2C0 + 16 * x.2, len := 16, bytes := [] } else unitOf (0x2C0 + 16 * x.2) (natBytes 16 x.1.toNat))) ++
  (r.t.toList.zipIdx).flatMap (fun x => (on (56 + x.2 / 2) (unitOfMem (0x4C0 + 0x840 * x.2) 2048 x.1.bytes)).toList ++
    (on (56 + x.2 / 2) (unitOf (0x4C0 + 0x840 * x.2 + 2048) (x.1.side.toList.flatMap (fun y => natBytes 4 y.toNat)))).toList) ++
  (r.c.toList.zipIdx).filterMap (fun x => on (60 + x.2 / 2) (unitOfMem (0x46C0 + 0x400 * x.2) 1024 x.1))
/-- Registers of a file kept where a liveness bit is set, others at their reset. -/
def keep {α : Type} {n : Nat} (mask : Word) (bit : Nat → Nat) (zero : α) (x : Vector α n) : Vector α n :=
  Vector.ofFn (fun (i : Fin n) => if mask.getLsbD (bit i.val) then x[i] else zero)
/-- What a wait with a liveness mask writes to the context record (R20 to R22). -/
def Regs.live_ (r : Regs) (mask : Word) : Regs :=
  { r with
    g := keep mask (fun i => i) 0 r.g
    v := keep mask (fun i => if i < 16 then 32 + i else 48 + (i - 16) / 2) 0 r.v
    t := keep mask (fun i => 56 + i / 2) Tile.reset r.t
    c := keep mask (fun i => 60 + i / 2) [] r.c }
/-- What is written of a task's record: header, live registers, TCB, SEGSEQ. A register that the mask discards is not
written. -/
def Task.units (t : Task) (r : Regs) (mask : Word) : List RecUnit :=
  [unitOf 0 r.header] ++ r.liveUnits mask ++ [unitOf 0x66C0 t.tcb.image, unitOf 0x6740 (natBytes 8 r.segseq.toNat)]

/-! ## Where firmware places save images and further records (R333) -/

/-- Bytes that a record beyond the 64 takes up. -/
def recordRoom : Nat := 2 ^ 15
/-- Ranges of device memory in use: the pages, tables and bitmaps of contexts, save images, records beyond the 64, and save
areas. -/
def State.inUse (s : State) : List (Nat × Nat) :=
  s.mod.ctxs.flatMap (fun c =>
    let root := bits (s.ctxRegs c.id).ptbase.toNat 47 15 * 2 ^ 15
    let mids := tablesOf s.mem root
    (c.dirtybase.toNat, bitmapBytes) :: (root :: mids ++ mids.flatMap (tablesOf s.mem)).map (fun a => (a, 32768)) ++
      (s.leaves c.id).map (fun x => if leafS x.2 then (bits x.2 47 25 * 2 ^ 25, 2 ^ 25) else (bits x.2 47 16 * 2 ^ 16, 2 ^ 16))) ++
  (s.allRanks ++ s.mod.saved.flatMap (fun x => x.ranks)).filterMap (fun k => k.place.map (fun a => (a, imageBytes))) ++
  s.mod.tasks.filterMap (fun t => t.place.map (fun a => (a, recordRoom))) ++
  s.mod.saved.map (fun x => (x.pa, 2 ^ 20))
/-- The places of a vault, below its record area, that hold n bytes and are free. -/
def vaultRoom (used : List (Nat × Nat)) (vault n : Nat) : List Nat :=
  ((List.range (6 * 2 ^ 20 / n)).map (fun i => vault * vaultBytes + n * i)).filter (fun a =>
    used.all (fun u => a + n ≤ u.1 || u.1 + u.2 ≤ a))
/-- Where firmware places n bytes for a core: in its own vault while there is room, else in another of its die. Which of the
free places it takes the spec leaves open (DESIGN CHOICE, log 39). -/
def State.freePlace (s : State) (core n : Nat) : Option Nat :=
  let used := s.inUse
  let own := vaultRoom used core n
  let pick := Config.place s.tick
  if own.isEmpty then
    (List.range 8192).findSome? (fun i => (vaultRoom used (core / 8192 * 8192 + (pick + i) % 8192) n).head?)
  else own[pick % own.length]?
/-- A rank bound to a core takes one of the core's 256 rank states and a save image there; its buffers and windows are
written whole (R317, R333). -/
def State.placeRank (s : State) (k : RankSt) : State :=
  let used := (s.allRanks.filter (fun x => x.core = k.core && x.key ≠ k.key)).map (fun x => x.slot)
  let n := ((List.range (used.length + 1)).find? (fun n => !used.contains n)).getD 0
  s.putRank { k with place := s.freePlace k.core imageBytes, slot := n } (BitVec.allOnes 128)

/-! ## Reading and writing records -/

/-- Where a task's record lies: in the record area of its rank's core, or where firmware has placed one beyond the 64 (R20,
R333). A USER routine has no record. -/
def State.recordAt (s : State) (t : Task) : Option Nat :=
  if t.rank.launch = 0 then none
  else if t.slot < recordSlots then some (recordArea (s.coreOf t.rank) + recordSize * t.slot)
  else t.place
/-- A write to a record beyond the 64, which lies in the context's device memory, marks its pages (R354). -/
def State.markRecord (s : State) (t : Task) : State :=
  match t.place with
  | some a => if t.slot < recordSlots then s else s.markPage t.ctx a
  | none => s
/-- A unit written into the record at an address, the bytes that it does not list zero. -/
def RecUnit.put (u : RecUnit) (a : Nat) (m : Memory) : Memory :=
  (m.clear (a + u.off) (a + u.off + u.len)).writeAt
    ((u.bytes.filter (fun x => u.off ≤ x.1 && x.1 < u.off + u.len)).map (fun x => (a + x.1, x.2)))
/-- Units written into the record at an address; a line written whole loses its poison (R361). -/
def State.putUnits (s : State) (a : Nat) (us : List RecUnit) : State :=
  { s with
    mem := s.mem.splice a (a + recordSize) (us.foldl (fun m u => u.put a m) (s.mem.slice a (a + recordSize)))
    mod := { s.mod with poison := s.mod.poison.filter (fun l =>
      !us.any (fun u => a + u.off ≤ 64 * l && 64 * l + 64 ≤ a + u.off + u.len)) } }
/-- Writing a task's record. -/
def State.writeRecord (s : State) (t : Task) (r : Regs) (mask : Word) : State :=
  match s.recordAt t with
  | none => s
  | some a => (s.markRecord t).putUnits a (t.units r mask)
/-- The registers in a record at an address (R333): its header and the files, whether live or not. -/
def Regs.ofRecord (m : Memory) (a : Nat) : Regs :=
  let f (off n : Nat) : Nat := leNat (m.read (a + off) n)
  let w (off : Nat) : Word := BitVec.ofNat 64 (f off 8)
  let block (off n : Nat) : Memory := (m.slice (a + off) (a + off + n)).map (fun c => (c.1 - (a + off), c.2))
  let lc (off : Nat) : Lc :=
    { count := BitVec.ofNat 32 (f off 4), reload := BitVec.ofNat 32 (f (off + 4) 4), s := w (off + 8), e := w (off + 16) }
  { pc := w 0
    evstat := w 8
    p := Vector.ofFn (fun i => i.val != 0 && bitOf (f 0x10 2) i.val)
    m := Vector.ofFn (fun i => if i.val = 0 then 0 else BitVec.ofNat 16 (f (0x10 + 2 * i.val) 2))
    k := Vector.ofFn (fun i => { gen := BitVec.ofNat 16 (f (0x20 + 4 * i.val) 2), bound := f (0x22 + 4 * i.val) 1 % 4 == 1 })
    lc := Vector.ofFn (fun i => lc (0x40 + 24 * i.val))
    mx := Vector.ofFn (fun i => BitVec.ofNat 32 (f (0x70 + 4 * i.val) 4))
    mxflag := BitVec.ofNat 4 (f 0x80 1)
    fe := bitOf (f 0x81 1) 0
    fpflags := BitVec.ofNat 6 (f 0x82 1)
    q := Vector.ofFn (fun i => (List.range (Nat.min 8 (f (0x83 + i.val) 1))).map (fun j => w (0xC0 + 64 * i.val + 8 * j)))
    tcfg := Vector.ofFn (fun i => BitVec.ofNat 20 (f (0x88 + 4 * i.val) 4))
    coinseed := w 0xA8
    live := w 0xB0
    fstat := w 0xB8
    g := Vector.ofFn (fun i => if i.val = 0 then 0 else w (0x1C0 + 8 * i.val))
    v := Vector.ofFn (fun i => BitVec.ofNat 128 (f (0x2C0 + 16 * i.val) 16))
    t := Vector.ofFn (fun i =>
      { bytes := block (0x4C0 + 0x840 * i.val) 2048
        side := Vector.ofFn (fun j => BitVec.ofNat 32 (f (0x4C0 + 0x840 * i.val + 2048 + 4 * j.val) 4)) })
    c := Vector.ofFn (fun i => block (0x46C0 + 0x400 * i.val) 1024)
    segseq := w 0x6740 }
/-- A task as it starts or resumes: its registers are those that its record holds, the discarded ones at their reset. The
header is read now; of the others each unit is read again at its first use (R20, R229). -/
def State.readRecord (s : State) (t : Task) : Task :=
  match s.recordAt t with
  | none => t
  | some a => { t with saved := (Regs.ofRecord s.mem a).live_ t.kept }
/-- An accumulator of a task's record takes a value (R198). -/
def State.recordAcc (s : State) (t : Task) (c : CReg) (m : Memory) : State :=
  match s.recordAt t with
  | none => s
  | some a => (s.markRecord t).putUnits a [unitOfMem (0x46C0 + 0x400 * c.toNat) 1024 m]
/-- EVSTAT of a waiting task's record, once the outcome is known (R153, R333). -/
def State.recordOutcome (s : State) (t : Task) (o : WaitOut) : State :=
  match s.recordAt t with
  | none => s
  | some a => (s.markRecord t).physWrite (a + 8) (natBytes 8 (evstatWord o.st o.ev o.inst o.alt).toNat)

/-! ## Fetch units (R229) -/

/-- The fetch units of registers. -/
def gUnit (r : GReg) : BitVec 28 := 1#28 <<< (r.toNat / 8)
def vUnit (r : VReg) : BitVec 28 := 1#28 <<< (4 + r.toNat / 4)
def tUnit (r : TReg) : BitVec 28 := 1#28 <<< (12 + r.toNat)
def cUnit (r : CReg) : BitVec 28 := 1#28 <<< (20 + r.toNat)
/-- Registers of the named units as another file of registers holds them. -/
def Regs.takeUnits (r x : Regs) (u : BitVec 28) : Regs :=
  { r with
    g := Vector.ofFn (fun i => if u.getLsbD (i.val / 8) then x.g[i] else r.g[i])
    v := Vector.ofFn (fun i => if u.getLsbD (4 + i.val / 4) then x.v[i] else r.v[i])
    t := Vector.ofFn (fun i => if u.getLsbD (12 + i.val) then x.t[i] else r.t[i])
    c := Vector.ofFn (fun i => if u.getLsbD (20 + i.val) then x.c[i] else r.c[i]) }
/-- The running task's record is read for those of the named units that the segment has not used yet; a register that the
mask discarded reads as zero (R20, R229). -/
def State.fetchUnits (s : State) (units : BitVec 28) : State :=
  let u := s.run.unread &&& units
  if u = 0 then s else
  match s.cur with
  | none => s
  | some t => { s with r := s.r.takeUnits (s.readRecord t).saved u, run := { s.run with unread := s.run.unread &&& ~~~u } }

end Sys2Proof.Machine
end

