-- ==== Sys2Proof/Machine/Knots.lean ====
section
/-! DEFINITION. Offers, choice records and knots: stamps and ages, the arrival of offers, occurrence, the resolution of
choices, deadlines and refusals (R162, R241 to R254, R259). -/

namespace Sys2Proof.Machine

/-! ## Stamps, ages and priorities (R241) -/

/-- A unit's next stamp: no unit issues two equal ones. -/
def State.takeStamp (s : State) (u : Nat) : Stamp × State :=
  let t := match s.mod.stamps.find? (fun x => x.1 = u) with
    | some x => if s.time ≤ x.2 then x.2 + 1 else s.time
    | none => s.time
  ({ t := t % 2 ^ 48, u := u },
   { s with mod := { s.mod with stamps := (u, t) :: s.mod.stamps.filter (fun x => x.1 ≠ u) } })
/-- The age at which a record is marked AGED. -/
def agedAge : Nat := 2 ^ 46
/-- Whether the record of a stamp is marked AGED. -/
def State.isAged (s : State) (p : Stamp) : Bool := s.mod.recs.any (fun r => r.stamp == p && r.aged)
/-- The age of a stamp, counted as 2^46 from there on; a stamp taken ahead of TIME is younger than any other.
(DEDUCED, log 20). -/
def State.age (s : State) (p : Stamp) : Int :=
  if s.isAged p then agedAge else
  let d : Nat := (s.time % 2 ^ 48 + 2 ^ 48 - p.t) % 2 ^ 48
  if 2 ^ 47 ≤ d then (d : Int) - 2 ^ 48 else (Nat.min d agedAge : Nat)
/-- The order of stamps: the greater age is older, equal ages go by the smaller U. -/
def State.older (s : State) (p q : Stamp) : Bool := s.age q < s.age p || (s.age p == s.age q && p.u < q.u)
/-- The identity cat(context, event name) of an event. -/
def evId (e : EvKey) : Nat := e.ctx * 2 ^ 20 + e.ev
/-- The order of events by priority: their oldest offers, then their identities. -/
def State.before (s : State) (p : Stamp) (e : EvKey) (q : Stamp) (f : EvKey) : Bool :=
  s.older p q || (p == q && evId e < evId f)
/-- The oldest offer of a list. -/
def State.oldestOffer (s : State) : List Offer → Option Offer
  | [] => none
  | o :: os =>
    match s.oldestOffer os with
    | none => some o
    | some b => if s.older b.stamp o.stamp then some b else some o
/-- Units that offer beside the cores (R241). -/
def copyUnit (cluster : Nat) : Nat := 0x8000 + cluster
def collUnit (e : Nat) : Nat := 0x9000 + e
def tokUnit (i : Nat) : Nat := 0x9010 + i
def detokUnit (i : Nat) : Nat := 0x9020 + i
/-- An Ultra Ethernet transport engine; the spec names no offer that one makes. -/
def transportUnit (p : Nat) : Nat := 0x9030 + p
def launchUnit : Nat := 0x9040
def knotUnit (k : Nat) : Nat := 0x9100 + k

/-! ## Homes of events (R238) -/

/-- Events homed at a knot. -/
def State.occupancy (s : State) (k : Nat) : Nat := (s.mod.events.filter (fun x => x.desc.knot = k)).length
/-- The least occupied of some knots, the lower number on ties.
(DEDUCED, log 27). -/
def State.leastKnot (s : State) : List Nat → Option Nat
  | [] => none
  | k :: ks =>
    match s.leastKnot ks with
    | none => some k
    | some j => if s.occupancy j < s.occupancy k then some j else some k
/-- Bough knots of a die whose boughs hold a cluster of the partition. -/
def Ctx.boughs (c : Ctx) (die : Nat) : List Nat :=
  ((List.range 32).map (fun b => 32 * die + b)).filter (fun k => c.clusters.any (fun x => x / 32 == k))
/-- Crown knots. -/
def crownKnots : List Nat := (List.range 64).map (fun i => 128 + i)
/-- Dies on which some cores lie. -/
def diesOf (cores : List Nat) : List Nat := (cores.map (fun k => k / 8192)).eraseDups
/-- A descriptor homed at a knot, for parties on the given cores of this part and on the given other parts. -/
def State.home (s : State) (c : Ctx) (d : Desc) (cores peers : List Nat) : Desc :=
  let bough := if (d.kind == .group || d.kind == .collstart) && d.combine != .user && peers.isEmpty then
      match diesOf cores with
      | [x] => s.leastKnot (c.boughs x)
      | _ => none
    else none
  match bough with
  | some k => { d with knot := k, scope := .die }
  | none => { d with knot := (s.leastKnot crownKnots).getD 128, scope := if peers.isEmpty then .mod else .sys }
/-- The cores to which the members of an event's group are bound. -/
def State.memberCores (s : State) (x : EvState) : List Nat :=
  match x.launch with
  | none => []
  | some l => (s.group x.key.ctx x.desc.group).filterMap (fun m => (s.rankEntry { launch := l, rank := m }).map (fun k => k.core))
/-- Whether an event is homed at a bough knot of a die on which some member no longer lies. -/
def State.strayed (s : State) (x : EvState) : Bool :=
  x.desc.scope == .die && !((s.memberCores x).all (fun k => k / 8192 == x.desc.knot / 32))
/-- Whether some offer of an event is CLAIMED by it. -/
def State.claimedBy (s : State) (x : EvState) : Bool :=
  x.offers.any (fun o => s.mod.recs.any (fun r => r.ro == o.ro && (match r.state with
    | .claimed f _ => f == x.key
    | _ => false)))
/-- Homing an event again, when its members have left the die of its knot: between two occurrences, once none of its
offers is CLAIMED. Its pending offers keep their stamps, and messages for it are addressed by its name. -/
def State.rehome (s : State) (e : EvKey) : State :=
  match s.ev e with
  | none => s
  | some x =>
    if !s.strayed x then s.updEv e (fun x => { x with moving := false })
    else if x.round.isSome || s.claimedBy x then s.updEv e (fun x => { x with moving := true })
    else match s.ctx e.ctx with
      | none => s
      | some c => s.updEv e (fun x => { x with moving := false, desc := s.home c x.desc (s.memberCores x) x.peers })
/-- The move that waited, when it can be made. -/
def State.settleHome (s : State) (e : EvKey) : State :=
  if ((s.ev e).map (fun x => x.moving)).getD false then s.rehome e else s

/-! ## Choice records -/

/-- Making a choice record, OPEN, stamped now. -/
def State.newRec (s : State) (u : Nat) (owner : Owner) (rank : Option RankKey) (alts : List Alt) (st : Status)
    (acc : Option CReg) (drain : Bool) : Nat × State :=
  let (p, s) := s.takeStamp u
  let r : Rec := { ro := s.fresh, owner := owner, rank := rank, alts := alts, stamp := p, aged := false, state := .open_,
                   held := [], st := st, cancel := none, acc := acc, drain := drain, backoff := [] }
  (s.fresh, ({ s with mod := { s.mod with recs := s.mod.recs ++ [r] } }).bump)
/-- Withdrawing a whole record at once: nothing of it stays at any knot. -/
def State.withdrawAll (s : State) (ro : Nat) : State := (s.dropOffers ro).dropRec ro
/-- Owing WITHDRAW to the knots of a record's alternatives, but for one of them (R245). -/
def State.oweWithdraws (s : State) (r : Rec) (but : Option Nat) : State :=
  (r.alts.zipIdx).foldl (fun s x => if some x.2 = but then s else s.owe (.withdraw x.1.e r.ro)) s
/-- Withdrawing a record that is not CLAIMED: WITHDRAW goes to the knots of all its alternatives, and claims it holds are
refused (R244, R251). Its offerer learns the outcome once every knot has been reached. -/
def State.withdrawRec (s : State) (r : Rec) : State :=
  let s := s.oweWithdraws r none
  let s := r.held.foldl (fun s h => s.owe (.refuse h.1 r.ro)) s
  s.updRec r.ro (fun r => { r with state := .withdrawn r.alts.length, held := [], cancel := none })
/-- The cancellation that withdraws a whole record (R251). -/
def State.withdrawal (s : State) (r : Rec) : CommitMsg :=
  let e := ((r.alts[0]?).map (fun a => a.e)).getD { ctx := 0, ev := 0 }
  { ro := r.ro, alt := 0, e := e, inst := ((s.ev e).map (fun x => x.inst)).getD 0, st := .withdrawn, bs := [] }
/-- Withdrawing a record: an OPEN one at once, a CLAIMED one once its claim is released; a record that is DONE keeps its
occurrence (R251). -/
def State.withdraw (s : State) (r : Rec) : State :=
  match r.state with
  | .open_ => s.withdrawRec r
  | .claimed _ _ => s.updRec r.ro (fun x => { x with cancel := some ((x.cancel).getD (s.withdrawal r)) })
  | _ => s
/-- Whether a record still counts at its knots: OPEN or CLAIMED (R241). -/
def Rec.live (r : Rec) : Bool :=
  match r.state with
  | .open_ => true
  | .claimed _ _ => true
  | _ => false
/-- Whether a pending offer counts for its event; one whose WITHDRAW is on its way does not (R251, R254). -/
def State.counts (s : State) (o : Offer) : Bool := s.mod.recs.any (fun r => r.ro == o.ro && r.live)
/-- The pending offers of an event that count. -/
def State.live (s : State) (x : EvState) : List Offer := x.offers.filter s.counts
/-- A task whose outcome is known: it becomes ready, unless a report holds it (R153, R162). -/
def State.wake (s : State) (id : Nat) : State :=
  match s.task id with
  | none => s
  | some t => if t.hold then s.updTask id (fun t => { t with st := .held }) else s.makeReady id

/-! ## What an occurrence or a cancellation brings to the offerer -/

/-- The payload written at the offerer's operand (R153, R240). -/
def State.writePayload (s : State) (r : Rec) (c : CommitMsg) : State :=
  match r.rank, (r.alts[c.alt]?).bind (fun a => a.pay) with
  | some k, some p =>
    let b : Buf := if p.inC then .c else .a
    if c.bs.isEmpty then s else
    match r.owner with
    | .try_ _ core =>
      if s.core = core then s.bufWrite b p.off c.bs
      else s.updExec core (fun e => { e with rank := e.rank.write b p.off c.bs })
    | _ => s.rankWrite k b p.off c.bs
  | _, _ => s
/-- The operation of a drain on an accumulator and the flags it raises (R198). -/
def drainInto (d : Desc) (acc : Memory) (bs : List Byte) : Memory × Flags :=
  drainAcc (d.combine == .drainMov) (d.elem == .i32) acc (Memory.write [] 0 bs)
/-- A drain at its waiting receiver: the saved accumulator takes the incoming one (R198). -/
def State.drainSaved (s : State) (task : Nat) (r : Rec) (c : CommitMsg) : State :=
  match r.acc, s.ev c.e with
  | some a, some x =>
    if r.drain || c.bs.isEmpty then s else
    match s.task task with
    | none => s
    | some t =>
      let m := drainInto x.desc t.saved.c[a.toNat] c.bs
      (s.updTask task (fun t => { t with
        saved := { t.saved with c := t.saved.c.set a.toNat m.1 }
        drainFlags := if t.saved.fe then m.2 else 0 })).recordAcc t a m.1
  | _, _ => s
/-- The outcome that a COMMIT message states. -/
def outOf (c : CommitMsg) : WaitOut := { st := c.st, ev := c.e.ev, inst := c.inst, alt := c.alt }
/-- A job's engine offer, made by a unit and sent to the knot of its completion event; an arming that an abort dropped
has its offer discarded, and one that then finds its event unarmed is reported (R209, R247). -/
def State.engineOffer (s : State) (u : Nat) (job : Nat) (st : Status) : State :=
  match s.job job with
  | none => s
  | some j =>
    match j.cev with
    | none => s
    | some e =>
      if j.dropped then
        if ((s.ev e).map (fun x => x.armed)).getD false then s
        else s.reportEngine (match j.kind with | .coll => 1 | .copy => 0 | .tap _ => 0 | _ => 2) j.core j.rank.rank j.ctx
          j.ea j.no
      else
        let (ro, s) := s.newRec u (.engine job) none [{ e := e, pay := none, bytes := [] }] st none false
        s.owe (.offer ro 0)
/-- The knot of an event. -/
def State.knotOf (s : State) (e : EvKey) : Nat := ((s.ev e).map (fun x => x.desc.knot)).getD 0
/-- The end of a COLLSTART offer that did not occur ends the member's completion event (R259). -/
def State.endCollOffer (s : State) (job : Nat) (e : EvKey) (st : Status) : State :=
  let s := s.voidJob job
  s.engineOffer (knotUnit (s.knotOf e)) job st
/-- A record's outcome reaches its offerer. -/
def State.deliver (s : State) (r : Rec) (c : CommitMsg) : State :=
  let s := s.writePayload r c
  match r.owner with
  | .wait id =>
    match s.task id with
    | none => s
    | some t =>
      if t.st ≠ .waiting r.ro then s
      else if c.st = .withdrawn then
        let u := s.updTask id (fun t => { t with st := .parked, outcome := some (outOf c) })
        if (s.sched t.core).preempted.contains t.ctx then u else u.wake id
      else
        (((s.drainSaved id r c).updTask id (fun t => { t with outcome := some (outOf c) })).recordOutcome t (outOf c)).wake id
  | .try_ _ core =>
    s.updRun core (fun o => if o.trying = some r.ro then { o with answer := some { out := (outOf c), trap := none, bs := c.bs } }
                            else o)
  | .deferred t core _ _ =>
    if c.st = .timeout ∧ (s.ev c.e).map (fun x => x.desc.kind) = some EvKind.binding then
      s.reportMsg c.e.ctx c.e.ev c.inst ((r.rank.map (fun k => k.rank)).getD 0) core t
    else s
  | .arm _ _ _ _ _ => s
  | .armev _ _ => s
  | .engine j =>
    match s.job j with
    | some x => if c.st = .occurred ∨ c.st = .aborted then s else s.cancelTap x
    | none => s
  | .waitev l _ =>
    let on := ((s.launch l).map (fun x => x.decl.runOnCancel)).getD false
    if c.st = .cancelled ∧ !on then
      (s.updLaunch l (fun x => { x with st := .cancelling })).oweOnce (.launchStart l)
    else
      let s := s.updLaunch l (fun x => { x with waits := x.waits - 1 })
      if ((s.launch l).map (fun x => x.waits == 0 && x.st == .waiting)).getD false then s.oweOnce (.launchStart l) else s
  | .sigev _ _ => s
  | .text id =>
    match s.mod.texts.find? (fun x => x.id = id) with
    | none => s
    | some x =>
      match c.st with
      | .occurred => s.owe (.tokenChunk id)
      | .timeout => s.abandonText x
      | _ => if x.open_ then (s.freeText id).owe (.dropNotice id) else s.freeText id
  | .coll _ _ _ _ job => if c.st = .occurred then s else s.endCollOffer job c.e c.st
/-- Whether a committed party still waits for its tile payload to move (R240, R198). -/
def State.tileMoves (s : State) (r : Rec) (c : CommitMsg) : Bool :=
  c.st == .occurred && !c.bs.isEmpty && ((s.ev c.e).map (fun x => x.desc.cls == .tile)).getD false &&
    (r.acc.isSome || ((r.alts[c.alt]?).bind (fun a => a.pay)).isSome)
/-- A record becomes DONE: its other alternatives are withdrawn, the claims it holds are refused, and the outcome
reaches the offerer, after the tile payload where there is one (R240, R244, R245). -/
def State.finish (s : State) (r : Rec) (c : CommitMsg) : State :=
  let s := match r.state with
    | .withdrawn _ => s
    | _ => s.oweWithdraws r (some c.alt)
  let s := r.held.foldl (fun s h => s.owe (.refuse h.1 r.ro)) s
  if s.tileMoves r c then
    (s.updRec r.ro (fun r => { r with state := .done c.alt, held := [] })).owe (.tilePayload c)
  else (s.dropRec r.ro).deliver r c

/-! ## Withdrawn records (R251, R252, R259) -/

/-- Whether a COMMIT or a payload for a record is on its way, or a USER routine that will send one runs. -/
def State.commitOwed (s : State) (ro : Nat) : Bool :=
  s.pending.any (fun i => match i with
    | .commit c => c.ro == ro
    | .tilePayload c => c.ro == ro
    | _ => false) || s.mod.events.any (fun x => x.user.any (fun o => o.ro == ro))
/-- A COLLSTART offer that was withdrawn is made again, with a new stamp (R259). -/
def State.reoffer (s : State) (ro core : Nat) : State :=
  let (p, s) := s.takeStamp core
  (s.updRec ro (fun r => { r with state := .open_, stamp := p })).owe (.offer ro 0)
/-- Every WITHDRAW of a record has reached its knot, and no COMMIT was sent before one did: its offerer learns WITHDRAWN.
A COLLSTART offer is kept, to be made again when its core no longer holds the context pre-empted. -/
def State.endWithdrawn (s : State) (r : Rec) : State :=
  match r.owner with
  | .coll _ core _ _ _ =>
    let ctx := ((r.alts[0]?).map (fun a => a.e.ctx)).getD 0
    if (s.sched core).preempted.contains ctx then s.updRec r.ro (fun r => { r with state := .parked })
    else s.reoffer r.ro core
  | _ => (s.dropRec r.ro).deliver r (s.withdrawal r)
/-- WITHDRAW at a knot: the offer is removed and its record freed; a COMMIT already sent to the record decides (R245,
R246, R251). -/
def State.onWithdraw (s : State) (e : EvKey) (ro : Nat) : State :=
  let s := s.updEv e (fun x =>
    let l := x.offers.filter (fun o => o.ro ≠ ro)
    { x with offers := l, clock := if l.isEmpty then none else x.clock })
  match s.recOf ro with
  | none => s
  | some r =>
    match r.state with
    | .withdrawn n =>
      let s := s.updRec ro (fun r => { r with state := .withdrawn (n - 1) })
      if 1 < n || s.commitOwed ro then s else s.endWithdrawn r
    | _ => s

/-! ## Refusals after commit (R162, R215, R259) -/

/-- The instance that the next occurrence of an event will have. -/
def State.instOf (s : State) (e : EvKey) : Nat := ((s.ev e).map (fun x => x.inst)).getD 0
/-- TRAPMSG that names an event and an instance (R326). -/
def evMsg (e : EvKey) (inst : Nat) : Word := BitVec.ofNat 64 (e.ev % 2 ^ 20 + (inst % 2 ^ 32) * 2 ^ 32)
/-- The report of a refused effect, and the hold of its task while the task lives. -/
def State.refuse (s : State) (task core : Nat) (pc seq : Word) (e : EvKey) (code : Trap) : State :=
  match s.task task with
  | some t =>
    (s.reportTask t 1 code.code pc 0 (evMsg e (s.instOf e)) seq).updTask task (fun t =>
      { t with hold := true, st := match t.st with | .ready _ => .held | x => x })
  | none =>
    s.report { kind := 1, code := code.code, pc := pc, addr := 0, msg := evMsg e (s.instOf e), seq := seq,
               src := trapsrcWord 0x1FFF 0 core 0 e.ctx 1, task := none }
/-- A wait whose offer duplicates another task's: reported, its task held, and the record refused whole, which withdraws
its other alternatives; an alternative that an event has CLAIMED finishes that claim first. RETRY offers again. -/
def State.refuseWait (s : State) (task : Nat) (r : Rec) (e : EvKey) : State :=
  let s := match s.task task with
    | none => s
    | some t => s.refuse task t.core t.saved.pc (t.saved.segseq - 1) e .evtDup
  s.withdraw r

/-- A SIGEV that finds its link unarmed: reported, and recorded in the completion record's LOST field (R308, R313). -/
def State.sigevLost (s : State) (l slot : Nat) (e : EvKey) : State :=
  match s.launch l with
  | none => s
  | some x =>
    let lost := x.lost ||| (1#4 <<< slot)
    let s := s.updLaunch l (fun x => { x with lost := lost })
    let s := s.report { kind := 1, code := Trap.evtUnarmed.code, pc := 0, addr := 0, msg := evMsg e (s.instOf e), seq := 0,
                        src := trapsrcWord 0x1FFF 0 0 0 x.ctx 1, task := none }
    match s.ctxTrap x.ctx x.decl.crec 64 needW with
    | some _ => s
    | none => s.ctxWrite x.ctx (x.decl.crec + 3) [lost.setWidth 8]

/-! ## Arrival and occurrence (R242, R243, R247) -/

/-- What a knot answers to an offer or an arming that reaches it. -/
inductive Arr where | ok | full | dup | unarmed | badSeq | gone
  deriving DecidableEq, Repr
/-- Pending-offer records of a knot (R242). -/
def knotCap : Nat := 32768
/-- Records in use at a knot. -/
def State.knotUsed (s : State) (k : Nat) : Nat :=
  s.mod.events.foldl (fun n x => if x.desc.knot = k then n + x.offers.length + b2n x.armed else n) 0
/-- Replacing an event's record. -/
def State.setEv (s : State) (x : EvState) : State := s.updEv x.key (fun _ => x)
/-- The deadline clock of an event that has pending offers and none running (R248). -/
def State.startClock (s : State) (e : EvKey) : State :=
  match s.ev e with
  | none => s
  | some x =>
    if x.desc.deadline = 0 ∨ x.offers.isEmpty ∨ x.clock.isSome then s
    else (s.setEv { x with clock := some s.time }).oweOnce (.deadline e)
/-- The offers that an occurrence of the event takes, when it is ready (R241, R243). -/
def State.partiesOf (s : State) (x : EvState) : Option (List Offer) :=
  if !x.user.isEmpty then none else
  let live := s.live x
  let all : Option (List Offer) :=
    let ms := s.group x.key.ctx x.desc.group
    if ms.isEmpty then none else ms.mapM (fun m => live.find? (fun o => o.rank = some m))
  match x.desc.kind with
  | .group => all
  | .collstart => if x.coll.isSome then none else all
  | .counted => if x.armed && x.need ≤ live.length then some (live.take x.need) else none
  | .binding =>
    match x.binding with
    | some b =>
      if b.standing && b.queue.length + b.running.length < b.depth then (s.oldestOffer live).map (fun o => [o])
      else none
    | none => none
/-- The same, when no round of the event is under way. -/
def State.parties (s : State) (x : EvState) : Option (List Offer) := if x.round.isSome then none else s.partiesOf x
/-- The accumulator that a drainer's offer contributes, read at the occurrence (R198, R199). -/
def State.drainBytes (s : State) (ro : Nat) : List Byte :=
  match s.recOf ro with
  | none => []
  | some r =>
    match r.acc, r.owner with
    | some a, .wait t => ((s.task t).map (fun k => k.saved.c[a.toNat].read 0 1024)).getD []
    | some a, .try_ _ core => ((s.execOf core).r.c[a.toNat]).read 0 1024
    | _, _ => []
/-- The combined payload of a party (R198, R239). -/
def State.partyBytes (s : State) (x : EvState) (ps : List Offer) (i : Nat) (o : Offer) : List Byte :=
  if x.desc.combine.drain then
    if ((s.recOf o.ro).map (fun r => r.drain)).getD true then []
    else (ps.filter (fun p => ((s.recOf p.ro).map (fun r => r.drain)).getD false)).flatMap (fun p => s.drainBytes p.ro)
  else
    match x.desc.kind with
    | .group =>
      combined x.desc (ps.map (fun p => p.bytes))
        (((ps.find? (fun p => p.rank = some x.desc.arg)).map (fun p => p.bytes)).getD []) i
    | .binding => o.bytes
    | _ => []
/-- The status of an occurrence: a job's own where an engine's offer carries one (R209). -/
def State.occStatus (s : State) (ps : List Offer) : Status :=
  ((ps.filterMap (fun p => (s.recOf p.ro).map (fun r => r.st))).find? (fun st => st != .occurred)).getD .occurred
/-- Sending COMMIT to each party's record. -/
def State.sendCommits (s : State) (x : EvState) (ps : List Offer) (st : Status) : State :=
  let msgs := (ps.zipIdx).map (fun p =>
    ({ ro := p.1.ro, alt := p.1.alt, e := x.key, inst := x.inst, st := st, bs := s.partyBytes x ps p.2 p.1 } : CommitMsg))
  msgs.foldl (fun s c => s.owe (.commit c)) s
/-- The event's record after an occurrence that takes offers: the next instance, with what stays pending. -/
def EvState.after (x : EvState) (ps : List Offer) : EvState :=
  { x with
    inst := (x.inst + 1) % 2 ^ 32
    offers := x.offers.filter (fun o => !ps.any (fun p => p.ro == o.ro && p.alt == o.alt))
    clock := none, round := none, armed := false, need := 0, engine := [] }
/-- The binding takes an accepted message, and its activation or its engine is started (R167, R168). -/
def State.accept (s : State) (x : EvState) (ps : List Offer) : State :=
  match x.binding, ps with
  | some b, o :: _ =>
    let act : Act := { e := x.key, inst := x.inst, msg := o.bytes, stamp := o.stamp, sender := o.rank, rank := b.rank, entry := b.entry,
                       prio := b.prio }
    let s := s.updEv x.key (fun y => { y with binding := some { b with queue := b.queue ++ [{ act with came := s.tick }] } })
    s.oweOnce (if b.engine then .detokeniseChunk x.key else .handlerActivation x.key)
  | _, _ => s
/-- What a knot does when its pending offers end otherwise than by an occurrence, no round being under way (R224, R248,
R253). A purge removes every record: offers, an arming, and the messages that a binding has accepted (R335). A timed-out
COUNTED event becomes unarmed. -/
def State.endOffers (s : State) (e : EvKey) (how : Ending) : State :=
  match s.ev e with
  | none => s
  | some x =>
    match how with
    | .purge =>
      let s := s.setEv { x with
        offers := [], clock := none, armed := false, need := 0, engine := [], ending := none
        binding := x.binding.map (fun b => { b with queue := [] }) }
      { s with mod := { s.mod with recs := s.mod.recs.filter (fun r =>
          !x.offers.any (fun o => o.single && o.ro == r.ro)) } }
    | .cancel st =>
      let y := { x with offers := [], clock := none, ending := none }
      let y := if st = .timeout then { y with armed := false, need := 0, engine := [] } else y
      x.offers.foldl (fun s o => s.owe (.commit { ro := o.ro, alt := o.alt, e := e, inst := x.inst, st := st, bs := [] }))
        (s.setEv y)
/-- The ending that waits for a round to be over, once it is. -/
def State.runEnding (s : State) (e : EvKey) (committed : Bool) : State :=
  match (s.ev e).bind (fun x => x.ending) with
  | none => s
  | some how =>
    if committed && how == .cancel .timeout then s.updEv e (fun x => { x with ending := none })
    else s.endOffers e how
/-- The tap of a job whose completion event occurs commits (R58, R214). -/
def State.commitTaps (s : State) (ps : List Offer) : State :=
  ps.foldl (fun s p =>
    match s.recOf p.ro with
    | some r =>
      match r.owner with
      | .engine j =>
        match s.job j with
        | some x => if r.st = .occurred then s.commitTap x else s
        | none => s
      | _ => s
    | none => s) s
/-- An occurrence of an event by the given offers (R239, R243, R245). -/
def State.occur (s : State) (e : EvKey) (ps : List Offer) : State :=
  match s.ev e with
  | none => s
  | some x =>
    let s :=
      if x.desc.combine = .user then
        (s.setEv { x.after ps with inst := x.inst, user := ps }).owe (.userRoutine e)
      else
        let s := ((s.commitTaps ps).sendCommits x ps (s.occStatus ps)).setEv (x.after ps)
        match x.desc.kind with
        | .binding => s.accept x ps
        | .collstart =>
          (s.updEv e (fun y => { y with coll := some { jobs := ps.map (fun p => p.job), start := s.time, prog := 0,
                                                       aborting := false } })).owe (.collective e)
        | _ => s
    ((s.runEnding e true).startClock e).settleHome e
/-- Starting a resolution round (R244). -/
def State.startRound (s : State) (x : EvState) (ps : List Offer) : State :=
  match s.oldestOffer (s.live x) with
  | none => s
  | some o =>
    let ros := ps.map (fun p => p.ro)
    ros.foldl (fun s ro => s.owe (.claim ro x.key o.stamp))
      (s.setEv { x with round := some { pr := o.stamp, granted := [], waiting := ros, released := false } })
/-- Committing or starting a round for as long as the event is ready (R243, R244). -/
def State.resolve : Nat → EvKey → State → State
  | 0, _, s => s
  | n + 1, e, s =>
    match s.ev e with
    | none => s
    | some x =>
      match s.parties x with
      | none => s
      | some ps => if ps.all (fun o => o.single) then State.resolve n e (s.occur e ps) else s.startRound x ps
/-- Resolution at an event's knot: a binding may accept several messages. -/
def State.tryResolve (s : State) (e : EvKey) : State :=
  State.resolve (((s.ev e).map (fun x => x.offers.length)).getD 0 + 1) e s
/-- CSEQ of a COLL parameter block (R215). -/
def blockCseq (bs : List Byte) : Nat := leNat ((bs.drop 16).take 4)
/-- Who offers. -/
def Owner.isWait : Owner → Bool
  | .wait _ => true | .waitev _ _ => true | _ => false
def Owner.isTry : Owner → Bool
  | .try_ _ _ => true | _ => false
/-- The job a record belongs to. -/
def Owner.job : Owner → Nat
  | .engine j => j | .coll _ _ _ _ j => j | _ => 0
/-- A pending GROUP or COLLSTART offer of the same rank; an offer whose WITHDRAW is on its way no longer counts. -/
def State.duplicate (s : State) (x : EvState) (rank : Option Nat) : Bool :=
  (s.live x).any (fun o => o.rank == rank)
/-- What stands against an offer at its knot. -/
def State.offerCheck (s : State) (x : EvState) (r : Rec) : Arr :=
  let rank := r.rank.map (fun k => k.rank)
  let room : Arr := if knotCap ≤ s.knotUsed x.desc.knot then .full else .ok
  match x.desc.kind with
  | .group => if s.duplicate x rank then .dup else room
  | .counted => if !x.armed && !r.owner.isWait then .unarmed else room
  | .binding => room
  | .collstart =>
    if blockCseq (((s.job r.owner.job).map (fun j => j.record)).getD []) ≠ x.cseq then .badSeq
    else if s.duplicate x rank then .dup
    else room
/-- Arming a COUNTED event for its next instance, on behalf of a launch (R160, R209, R247, R253). -/
def State.arm (s : State) (e : EvKey) (n : Nat) (job armer : Option Nat) : Arr × State :=
  match s.ev e with
  | none => (.gone, s)
  | some x =>
    if x.armed then (.dup, s)
    else if knotCap ≤ s.knotUsed x.desc.knot then (.full, s)
    else (.ok, (s.setEv { x with armed := true, came := s.tick, need := n, engine := x.engine ++ job.toList, armer := armer }).tryResolve e)
/-- The arity that an arming carries. -/
def Owner.arity : Owner → Option Nat
  | .arm _ _ _ _ n => some n
  | .armev _ n => some n
  | _ => none
/-- The launch on whose behalf a record acts (R253). -/
def Rec.forLaunch (r : Rec) : Option Nat :=
  match r.owner with
  | .armev l _ => some l
  | _ => r.rank.map (fun k => k.launch)
/-- An alternative of a record reaches its knot: an arming arms the event, anything else is an offer. A record that was
withdrawn, or is DONE, offers nothing any more, and the outcome of an event with a party on a failed part is PEER_FAILED
(R250, R271). -/
def State.offerArrives (s : State) (ro alt : Nat) : Arr × State :=
  match s.recOf ro with
  | none => (.gone, s)
  | some r =>
    match r.alts[alt]? with
    | none => (.gone, s)
    | some a =>
      match s.ev a.e, r.owner.arity with
      | none, _ => (.gone, s)
      | some _, some n =>
        match (s.dropRec ro).arm a.e n none r.forLaunch with
        | (.ok, t) => (.ok, t)
        | (no, _) => (no, s)
      | some x, none =>
        if !r.live then (.ok, s) else
        match s.offerCheck x r with
        | .ok =>
          if x.peers.any s.mod.failed.contains then
            (.ok, s.owe (.commit { ro := ro, alt := alt, e := a.e, inst := x.inst, st := .peerFailed, bs := [] }))
          else
          let o : Offer := { ro := ro, alt := alt, rank := r.rank.map (fun k => k.rank), bytes := a.bytes,
                             stamp := r.stamp, single := r.alts.length == 1,
                             block := ((s.job r.owner.job).map (fun j => j.record)).getD [], job := r.owner.job }
          let s := (s.setEv { x with offers := x.offers ++ [{ o with came := s.tick }] }).startClock a.e
          (.ok, (s.oweOnce (.agedSweep x.desc.knot)).tryResolve a.e)
        | no => (no, s)
/-- Backoff before a refused offer is sent again, in nanoseconds: 64, doubled at each refusal, at most 16 µs (R242). -/
def nextBackoff (b : Nat) : Nat := if b = 0 then 64 else Nat.min (2 * b) 16000
/-- The backoff of an alternative, and the time before which it is not sent again; none where it was not refused. -/
def Rec.backoffOf (r : Rec) (alt : Nat) : Option (Nat × Nat) := (r.backoff.find? (fun b => b.1 = alt)).map (fun b => b.2)
/-- A record whose alternative was refused once more, or accepted. -/
def Rec.refusedAt (r : Rec) (alt now : Nat) : Rec :=
  let b := nextBackoff ((r.backoffOf alt).elim 0 (fun x => x.1))
  { r with backoff := (alt, b, now + b) :: r.backoff.filter (fun x => x.1 ≠ alt) }
def Rec.acceptedAt (r : Rec) (alt : Nat) : Rec := { r with backoff := r.backoff.filter (fun x => x.1 ≠ alt) }
/-- What follows from the knot's answer to an offer that nobody stalls for (R162, R242, R247, R259). -/
def State.afterArrival (s : State) (ro alt : Nat) (a : Arr) : State :=
  match s.recOf ro with
  | none => s
  | some r =>
    let e := ((r.alts[alt]?).map (fun a => a.e)).getD { ctx := 0, ev := 0 }
    match a, r.owner with
    | .ok, _ => s.updRec ro (fun r => r.acceptedAt alt)
    | .gone, _ => s.dropRec ro
    | .full, _ => (s.updRec ro (fun r => r.refusedAt alt s.time)).owe (.fullBackoff ro alt)
    | _, .wait t => s.refuseWait t r e
    | _, .arm t core pc seq _ => (s.dropRec ro).refuse t core pc seq e .evtDup
    | no, .deferred t core pc seq =>
      (s.dropRec ro).refuse t core pc seq e (if no = .unarmed then .evtUnarmed else .evtDup)
    | no, .coll t core pc seq job =>
      ((s.dropRec ro).refuse t core pc seq e (if no = .badSeq then .engine else .evtDup)).endCollOffer job e .aborted
    | .unarmed, .sigev l slot => (s.dropRec ro).sigevLost l slot e
    | _, .engine job =>
      let s := s.dropRec ro
      match s.job job with
      | some j => (s.reportEngine (match j.kind with | .coll => 1 | .copy => 0 | .tap _ => 0 | _ => 2) j.core j.rank.rank
          j.ctx j.ea j.no).cancelTap j
      | none => s
    | _, _ => s.dropRec ro
/-- An offer reaches its knot and is answered. -/
def State.sendOffer (s : State) (ro alt : Nat) : State :=
  let (a, s) := s.offerArrives ro alt
  s.afterArrival ro alt a

/-! ## Tries (R155, R158, R199) -/

/-- Whether a round under way may still bring a record its occurrence. -/
def State.inRound (s : State) (r : Rec) : Bool :=
  r.alts.any (fun a => ((s.ev a.e).bind (fun x => x.round)).any (fun d =>
    !d.released && (d.granted.contains r.ro || d.waiting.contains r.ro)))
/-- Ending a try with an answer, nothing left at any knot. -/
def State.endTry (s : State) (core ro : Nat) (a : TryAns) : State :=
  (s.withdrawAll ro).updRun core (fun o => if o.trying = some ro then { o with answer := some a } else o)
/-- NOTREADY for a try that no round under way can still bring to occur (R155). For CHOOSE.T, EVSTAT then names alternative 0
and its event's next instance (R158; DESIGN CHOICE, log 41). -/
def State.settleTry (s : State) (ro : Nat) : State :=
  match s.recOf ro with
  | none => s
  | some r =>
    match r.owner, r.state with
    | .try_ _ core, .open_ =>
      if s.inRound r || s.commitOwed ro then s else
      let e := ((r.alts[0]?).map (fun a => a.e)).getD { ctx := 0, ev := 0 }
      s.endTry core ro { out := { st := .notready, ev := e.ev, inst := s.instOf e, alt := 0 }, trap := none, bs := [] }
    | _, _ => s
/-- An event forgets a record's offer. -/
def EvState.without (x : EvState) (ro : Nat) : EvState :=
  let l := x.offers.filter (fun o => o.ro ≠ ro)
  { x with offers := l, clock := if l.isEmpty then none else x.clock }
/-- A try takes part in no resolution of an event but the one that its offer starts: where that is none, or is over, its
alternative is withdrawn there (R155, R158). -/
def State.pastTry (s : State) (e : EvKey) (ro : Nat) : State :=
  let mine := ((s.ev e).bind (fun x => x.round)).any (fun d => d.granted.contains ro || d.waiting.contains ro)
  if mine then s else s.updEv e (fun x => x.without ro)
/-- Sending a try's alternatives from alternative i on; the first refusal ends the whole try (R155, R158, R162). -/
def State.sendAlts (s : State) (core ro : Nat) : Nat → List Alt → State
  | _, [] => s.settleTry ro
  | i, a :: rest =>
    let (ans, s) := s.offerArrives ro i
    let out (st : Status) : WaitOut := { st := st, ev := a.e.ev, inst := s.instOf a.e, alt := i }
    match ans with
    | .ok => State.sendAlts (s.pastTry a.e ro) core ro (i + 1) rest
    | .full => s.endTry core ro { out := out .full, trap := none, bs := [] }
    | .unarmed => s.endTry core ro { out := out .notready, trap := some .evtUnarmed, bs := [] }
    | _ => s.endTry core ro { out := out .notready, trap := some .evtDup, bs := [] }
/-- Sending a try from the focused core, which stalls for its answer. -/
def State.sendTry (s : State) (alts : List Alt) (acc : Option CReg) (drain : Bool) : State :=
  let (ro, s) := s.newRec s.core (.try_ s.run.task s.core) (some s.rank.key) alts .occurred acc drain
  let t : State := { s with run := { s.run with trying := some ro, answer := none } }
  t.sendAlts s.core ro 0 alts

/-! ## The steps of resolution (R244, R245) -/

/-- OFFER: an alternative reaches its knot (R243). -/
def execOffer (s : State) : Host.Outcome State Fault Refusal :=
  match s.doing with
  | some (.offer ro alt) => .next (s.sendOffer ro alt)
  | _ => .next s
/-- Whether an alternative still waits out its backoff. -/
def State.backsOff (s : State) (ro alt : Nat) : Bool :=
  (((s.recOf ro).bind (fun r => r.backoffOf alt)).map (fun b => decide (s.time < b.2))).getD false
/-- FULL_BACKOFF: a refused offer is sent again, once its backoff is over (R242). -/
def execFullBackoff (s : State) : Host.Outcome State Fault Refusal :=
  match s.doing with
  | some (.fullBackoff ro alt) => .next (if s.backsOff ro alt then s.owe (.fullBackoff ro alt) else s.sendOffer ro alt)
  | _ => .next s
/-- A record answers a CLAIM (R244). -/
def State.onClaim (s : State) (ro : Nat) (e : EvKey) (pr : Stamp) : State :=
  match s.recOf ro with
  | none => s.owe (.refuse e ro)
  | some r =>
    match r.state with
    | .withdrawn _ => s.owe (.refuse e ro)
    | .parked => s.owe (.refuse e ro)
    | .open_ => (s.updRec ro (fun r => { r with state := .claimed e pr })).owe (.grant e ro)
    | .done _ => s.owe (.refuse e ro)
    | .claimed f q =>
      if s.before pr e q f then
        let t := s.updRec ro (fun r => { r with held := r.held ++ [(e, pr)] })
        if r.held.isEmpty then t.owe (.revoke f ro) else t
      else s.owe (.refuse e ro)
/-- CLAIM (R244). -/
def execClaim (s : State) : Host.Outcome State Fault Refusal :=
  match s.doing with
  | some (.claim ro e pr) => .next (s.onClaim ro e pr)
  | _ => .next s
/-- Tries among an event's pending offers. -/
def State.triesAt (s : State) (e : EvKey) : List Nat :=
  (((s.ev e).map (fun x => x.offers.map (fun o => o.ro))).getD []).filter (fun ro => (s.recOf ro).any (fun r => r.owner.isTry))
/-- The end of a round: tries take part in no further one, and a ready event starts again (R155, R244). -/
def State.endRound (s : State) (e : EvKey) : State :=
  let s := s.updEv e (fun x => { x with round := none })
  let s := s.runEnding e false
  let s := (s.triesAt e).foldl (fun s ro => (s.pastTry e ro).settleTry ro) s
  (s.settleHome e).tryResolve e
/-- A round replaced, and ended when every answer is in. -/
def State.setRound (s : State) (e : EvKey) (d : Round) : State :=
  let s := s.updEv e (fun x => { x with round := some d })
  if d.waiting.isEmpty && d.released then s.endRound e else s
/-- Another ready event with an older oldest offer takes one of these records: by R246 it commits first.
(DEDUCED, log 20). -/
def State.conflictsOlder (s : State) (x : EvState) (pr : Stamp) (ros : List Nat) : Bool :=
  s.mod.events.any (fun y =>
    y.key != x.key && ((s.oldestOffer (s.live y)).map (fun o => s.before o.stamp y.key pr x.key)).getD false &&
      ((s.partiesOf y).map (fun ps => ps.any (fun o => ros.contains o.ro))).getD false)
/-- Whether the records that granted a round are still the parties that the event needs: since it began, an abort may have
taken one back, or the arming (R209, R247). -/
def State.stillParties (s : State) (x : EvState) (granted : List Nat) : Bool :=
  let ps := x.offers.filter (fun o => granted.contains o.ro)
  let all := (s.group x.key.ctx x.desc.group).all (fun m => ps.any (fun o => o.rank == some m))
  match x.desc.kind with
  | .group => all
  | .collstart => all
  | .counted => x.armed && ps.length == x.need
  | .binding => ps.length == 1
/-- A round given up: RELEASE goes to the records that granted it and to those still to answer, whose GRANTs will be
discarded, but not to one that has its answer (R244). -/
def State.releaseRound (s : State) (e : EvKey) (d : Round) (but : Option Nat) : State :=
  (((d.granted ++ d.waiting).filter (fun ro => some ro ≠ but)).foldl (fun s ro => s.owe (.release ro e)) s).setRound e
    { d with granted := [], released := true }
/-- A GRANT reaches a knot: it completes the round, or belongs to a round already released and is discarded (R244). While an older ready
event conflicts, the round's last GRANT is still on its way: that event's claim comes first and revokes the round
(R246). A round whose event is no longer ready is released (R247). -/
def State.onGrant (s : State) (e : EvKey) (ro : Nat) : State :=
  match s.ev e with
  | none => s
  | some x =>
    match x.round with
    | none => s
    | some d =>
      if !d.waiting.contains ro then s
      else if d.released then s.setRound e { d with waiting := d.waiting.erase ro }
      else
        let d := { d with waiting := d.waiting.erase ro, granted := d.granted ++ [ro] }
        if d.waiting.isEmpty && s.conflictsOlder x d.pr d.granted then s.owe (.grant e ro)
        else if d.waiting.isEmpty && !s.stillParties x d.granted then s.releaseRound e d none
        else if d.waiting.isEmpty then
          let ps := x.offers.filter (fun o => d.granted.contains o.ro)
          let ps := match x.desc.kind with
            | .group => sortBy (fun a b => decide (a.rank.getD 0 ≤ b.rank.getD 0)) ps
            | _ => ps
          (s.occur e ps).tryResolve e
        else s.setRound e d
/-- GRANT (R244). -/
def execGrant (s : State) : Host.Outcome State Fault Refusal :=
  match s.doing with
  | some (.grant e ro) => .next (s.onGrant e ro)
  | _ => .next s
/-- REVOKE at the younger event's knot: RELEASED, unless its COMMIT decides or its RELEASE is on its way (R244). -/
def State.onRevoke (s : State) (e : EvKey) (ro : Nat) : State :=
  match (s.ev e).bind (fun x => x.round) with
  | none => s
  | some d =>
    if d.released || !(d.granted.contains ro || d.waiting.contains ro) then s else
    (s.owe (.released ro e)).releaseRound e d (some ro)
/-- REVOKE (R244). -/
def execRevoke (s : State) : Host.Outcome State Fault Refusal :=
  match s.doing with
  | some (.revoke e ro) => .next (s.onRevoke e ro)
  | _ => .next s
/-- REFUSE at a knot (R244). -/
def State.onRefuse (s : State) (e : EvKey) (ro : Nat) : State :=
  match (s.ev e).bind (fun x => x.round) with
  | none => s
  | some d =>
    if !d.waiting.contains ro then s
    else if d.released then s.setRound e { d with waiting := d.waiting.erase ro }
    else s.releaseRound e { d with waiting := d.waiting.erase ro } none
/-- REFUSE (R244). -/
def execRefuse (s : State) : Host.Outcome State Fault Refusal :=
  match s.doing with
  | some (.refuse e ro) => .next (s.onRefuse e ro)
  | _ => .next s
/-- The first claim by priority. -/
def State.firstClaim (s : State) : List (EvKey × Stamp) → Option (EvKey × Stamp)
  | [] => none
  | h :: hs =>
    match s.firstClaim hs with
    | none => some h
    | some b => if s.before b.2 b.1 h.2 h.1 then some b else some h
/-- A record whose claim ends without a commit: a cancellation that waited takes effect, else the oldest claim it holds
is granted and the others are refused (R244, R248, R251). -/
def State.onReleased (s : State) (ro : Nat) (e : EvKey) : State :=
  match s.recOf ro with
  | none => s
  | some r =>
    match r.state with
    | .claimed f _ =>
      if f ≠ e then s else
      let s : State := match r.cancel with
        | some c => if c.st = .withdrawn then s.withdrawRec r else s.finish r c
        | none =>
          match s.firstClaim r.held with
          | some h =>
            let s := (s.updRec ro (fun r => { r with state := .claimed h.1 h.2, held := [] })).owe (.grant h.1 ro)
            (r.held.filter (fun x => x ≠ h)).foldl (fun s x => s.owe (.refuse x.1 ro)) s
          | none => (s.updRec ro (fun r => { r with state := .open_ })).settleTry ro
      s.settleHome e
    | _ => s
/-- RELEASE or RELEASED reaches a record: its claim ends, or the claim it holds behind another is given up, which it
answers with REFUSE (R244). -/
def State.onRelease (s : State) (ro : Nat) (e : EvKey) : State :=
  match s.recOf ro with
  | none => s
  | some r =>
    if r.held.any (fun h => h.1 == e) then
      (s.updRec ro (fun r => { r with held := r.held.filter (fun h => h.1 != e) })).owe (.refuse e ro)
    else s.onReleased ro e
/-- RELEASED (R244). -/
def execReleased (s : State) : Host.Outcome State Fault Refusal :=
  match s.doing with
  | some (.released ro e) => .next (s.onRelease ro e)
  | _ => .next s
/-- RELEASE (R244). -/
def execRelease (s : State) : Host.Outcome State Fault Refusal :=
  match s.doing with
  | some (.release ro e) => .next (s.onRelease ro e)
  | _ => .next s
/-- A COMMIT or a cancellation reaches a record; a record CLAIMED by another event finishes that claim first (R245,
R248). -/
def State.onCommit (s : State) (c : CommitMsg) : State :=
  match s.recOf c.ro with
  | none => s
  | some r =>
    match r.state with
    | .open_ => s.finish r c
    | .claimed f _ => if f = c.e then s.finish r c else s.updRec c.ro (fun r => { r with cancel := some c })
    | .withdrawn _ => s.finish r c
    | .done _ => s
    | .parked => s
/-- COMMIT (R245). -/
def execCommit (s : State) : Host.Outcome State Fault Refusal :=
  match s.doing with
  | some (.commit c) => .next (s.onCommit c)
  | _ => .next s
/-- TILE_PAYLOAD: the payload has been written, and the party's occurrence completes (R240, R198). -/
def execTilePayload (s : State) : Host.Outcome State Fault Refusal :=
  match s.doing with
  | some (.tilePayload c) =>
    .next (match s.recOf c.ro with
      | some r => (s.dropRec c.ro).deliver r c
      | none => s)
  | _ => .next s
/-- WITHDRAW (R245, R251). -/
def execWithdraw (s : State) : Host.Outcome State Fault Refusal :=
  match s.doing with
  | some (.withdraw e ro) => .next (s.onWithdraw e ro)
  | _ => .next s
/-- Ending an event's pending offers, after a round or routine under way (R224, R248, R253). -/
def State.endEvent (s : State) (e : EvKey) (how : Ending) : State :=
  match s.ev e with
  | none => s
  | some x => if x.round.isSome then s.setEv { x with ending := some how } else s.endOffers e how
/-- DEADLINE: the clock of the instance reaches DEADLINE µs (R248). -/
def execDeadline (s : State) : Host.Outcome State Fault Refusal :=
  match s.doing with
  | some (.deadline e) =>
    .next (match s.ev e with
      | some x =>
        match x.clock with
        | some t => ({ s with time := Nat.max s.time (t + 1000 * x.desc.deadline) }).endEvent e (.cancel .timeout)
        | none => s
      | none => s)
  | _ => .next s
/-- AGED_SWEEP: a knot marks the records whose age has reached 2^46 ns, and sweeps again while it has any (R241). -/
def execAgedSweep (s : State) : Host.Outcome State Fault Refusal :=
  match s.doing with
  | some (.agedSweep k) =>
    let at_ (r : Rec) : Bool := r.alts.any (fun a => s.knotOf a.e == k)
    let t : State := { s with mod := { s.mod with recs := updWhere at_ (fun r =>
      if (agedAge : Int) ≤ s.age r.stamp then { r with aged := true } else r) s.mod.recs } }
    .next (if s.mod.recs.any at_ then t.oweOnce (.agedSweep k) else t)
  | _ => .next s
/-- Withdrawing the offers of a waiting task (R251, R252). -/
def State.withdrawTask (s : State) (t : Task) : State :=
  match t.st with
  | .waiting ro =>
    match s.recOf ro with
    | none => s
    | some r => s.withdraw r
  | _ => s
/-- The COLLSTART offers that a core has made for tasks of a context, or of one of its ranks. -/
def State.collOffers (s : State) (core : Nat) (ofRank : RankKey → Bool) : List Rec :=
  s.mod.recs.filter (fun r => (r.rank.map ofRank).getD false && (match r.owner with
    | .coll _ c _ _ _ => c == core
    | _ => false))
/-- Withdrawing COLLSTART offers (R259). -/
def State.withdrawColls (s : State) (core : Nat) (ofRank : RankKey → Bool) : State :=
  (s.collOffers core ofRank).foldl (fun s r => s.withdraw r) s

end Sys2Proof.Machine
end

