-- ==== Sys2Proof/Machine/Tasks.lean ====
section
/-! DEFINITION. Tasks and segments: the end of a segment (R19, R20 to R23), the completion phase of a wait (R153, R154),
the choice of the next task (R13), residency and visitors (R319, R320), handler activations (R167, R168), pre-emption
(R331) and budgets (R11). -/

namespace Sys2Proof.Machine

/-! ## Context records (R20 to R22) -/

/-- A liveness mask with the pair bit of an accumulator set (R198). -/
def withAcc (mask : Word) (c : Option CReg) : Word :=
  match c with
  | some c => mask ||| (1#64 <<< (60 + c.toNat / 2))
  | none => mask
/-- Registers of a task at its start (R33, R163, R168). -/
def startRegs (t : Tcb) : Regs :=
  { Regs.reset with
    pc := t.entry, live := t.live
    g := Vector.ofFn (fun (i : Fin 32) => if 4 ≤ i.val ∧ i.val < 8 then t.arg.getD (i.val - 4) 0 else 0) }

/-! ## Making tasks -/

/-- The smallest task slot that no task of a core's record area uses (R333). -/
def State.freeSlot (s : State) (core : Nat) : Nat :=
  let used := (s.mod.tasks.filter (fun t => s.coreOf t.rank = core)).map (fun t => t.slot)
  ((List.range (used.length + 1)).find? (fun n => !used.contains n)).getD 0
/-- A task takes the smallest slot of its rank's core, or device memory for its record (R20, R333). -/
def State.placeRecord (s : State) (t : Task) : Task :=
  let n := s.freeSlot (s.coreOf t.rank)
  { t with slot := n, place := if n < recordSlots then none else s.freePlace (s.coreOf t.rank) recordRoom }
/-- A new task of a rank on a core, at its first checkpoint, which its record holds (R20, R333). -/
def State.newTask (s : State) (rank : RankKey) (ctx core : Nat) (t : Tcb) (st : TaskSt) (act : Option Act) : Nat × State :=
  let k : Task := { id := s.fresh, rank := rank, ctx := ctx, core := core, slot := 0, tcb := t,
                    saved := startRegs t, st := st, resume := false, outcome := none, wait := none, hold := false,
                    drainFlags := 0, act := act, visitor := false, kept := BitVec.allOnes 64,
                    offered := Vector.replicate 32 0, place := none }
  let k := s.placeRecord k
  let s := s.writeRecord k (startRegs t) (BitVec.allOnes 64)
  (s.fresh, ({ s with mod := { s.mod with tasks := s.mod.tasks ++ [k] } }).bump)

/-- A task whose rank is bound to another core takes a record in that core's area, with the registers of its old one, which
lay at an address (R20, R252, R333). -/
def State.reslot (s : State) (id : Nat) (old : Option Nat) : State :=
  match s.task id with
  | none => s
  | some t =>
    let rest : State := { s with mod := { s.mod with tasks := s.mod.tasks.filter (fun x => x.id ≠ id) } }
    let regs := (old.map (fun a => (Regs.ofRecord s.mem a).live_ t.kept)).getD t.saved
    let t := { rest.placeRecord t with saved := regs, kept := BitVec.allOnes 64 }
    let s := s.updTask id (fun _ => t)
    s.writeRecord t regs (BitVec.allOnes 64)

/-! ## Residency and visitors (R319, R320, R322) -/

/-- The blocks that the resident rank of the focused core has had written go to its save image (R319). -/
def State.saveResident (s : State) : State :=
  if s.rank.key.launch = 0 then s else { s.putRank s.rank s.rank.unsaved with rank := noRank }
/-- The image of a rank is read in on the focused core (R319). -/
def State.makeResident (s : State) (key : RankKey) : State :=
  if s.rank.key = key then s else
  let s := s.saveResident
  match s.mod.ranks.find? (fun k => k.key = key) with
  | some k => { s with rank := k.saved s.mem, mod := { s.mod with ranks := s.mod.ranks.filter (fun k => k.key ≠ key) } }
  | none => s
/-- The stage of a handler's binding. -/
def State.stageOf (s : State) (t : Task) : Option (Stage × EvKey) :=
  t.act.bind (fun a => (s.ev a.e).bind (fun x => x.binding.bind (fun b => b.stage.map (fun g => (g, a.e)))))
/-- Whether a task runs away from its rank's own core. -/
def State.away (s : State) (t : Task) : Bool := t.visitor || t.core != s.coreOf t.rank
/-- The activation area of a message class (R168). -/
def actArea (tile : Bool) : Foot :=
  if tile then { buf := .a, base := 0x1C000, len := 0x4000 } else { buf := .c, base := 0x1FFC0, len := 64 }
/-- Whether a handler's message is of tile class. -/
def State.actTile (s : State) (a : Act) : Bool := ((s.ev a.e).map (fun x => x.desc.cls == .tile)).getD false
/-- The regions that a task away from its core sees, with the bytes copied in: its footprint from its rank's image, or a
stage's FOOT as that core holds it with the activation area. -/
def State.regions (s : State) (t : Task) (k : RankSt) : List (Foot × List Byte) :=
  match t.act with
  | none => t.tcb.foot.map (fun f => (f, (k.buf f.buf).read f.base f.len))
  | some a =>
    let area := actArea (s.actTile a)
    let foot := match s.stageOf t with
      | some (g, _) =>
        match g.foot, g.cores.find? (fun c => c.core = t.core) with
        | some f, some c => [(f, c.bytes)]
        | _, _ => []
      | none => []
    foot ++ [(area, zeros area.len)]
/-- The focused core takes in the image, or the regions, of a task it is about to run.
(DEDUCED, log 34). -/
def State.load (s : State) (t : Task) : State :=
  if s.away t then
    let s := s.saveResident
    let k := (s.getRank t.rank).getD noRank
    let regs := s.regions t k
    let copy := regs.foldl (fun (c : RankSt) x => c.write x.1.buf x.1.base x.2)
      { RankSt.empty t.rank t.ctx k.core with wins := k.wins, gen := k.gen }
    { s with rank := { copy with map := 0, unsaved := 0 }, run := { s.run with visit := some regs } }
  else s.makeResident t.rank
/-- A visitor's written bytes go back before its offer is sent: to its rank's image, or to its stage's copy on this core
(R320, R322). A byte that the segment left as it was copied in is not written. A byte of a live stolen task's regions that
another task has changed meanwhile is unspecified: it becomes a free byte, unless a job of the task itself may have written
it (DESIGN CHOICE, log 9; DEDUCED, log 34). The blocks that the segment wrote are marked in the rank's map, whatever the
bytes (R355). -/
def State.copyBack (s : State) (t : Task) : State :=
  match s.run.visit with
  | none => s
  | some regs =>
    let mine := s.rank
    let own := s.mod.jobs.any (fun j => j.task == s.run.task)
    let rank := s.getRank t.rank
    match t.act with
    | none =>
      let s := s.updRank t.rank (fun k => { k with map := k.map ||| mine.map })
      regs.foldl (fun s x =>
        let now := (mine.buf x.1.buf).read x.1.base x.1.len
        let home := (rank.map (fun k => (k.buf x.1.buf).read x.1.base x.1.len)).getD x.2
        ((now.zip x.2).zip home).zipIdx.foldl (fun s y =>
          if y.1.2 ≠ y.1.1.2 ∧ own = false then s.rankWrite t.rank x.1.buf (x.1.base + y.2) (s.freeBytes (x.1.base + y.2) 1)
          else if y.1.1.1 = y.1.1.2 then s
          else s.rankWrite t.rank x.1.buf (x.1.base + y.2) [y.1.1.1]) s) s
    | some a =>
      s.updEv a.e (fun x => { x with binding := x.binding.map (fun b => { b with stage := b.stage.map (fun g =>
        { g with cores := updWhere (fun c => c.core = s.core) (fun c =>
            match g.foot with
            | some f => { c with bytes := (mine.buf f.buf).read f.base f.len }
            | none => c) g.cores }) }) })

/-! ## Choosing and starting a task (R13) -/

/-- A ready task, with its ready sequence number. -/
def Task.readySeq (t : Task) : Option Nat :=
  match t.st with
  | .ready n => some n
  | _ => none
/-- A task in the spawn deque, with its place. -/
def Task.dequeNo (t : Task) : Option Nat :=
  match t.st with
  | .deque n => some n
  | _ => none
/-- Whether a launch is being cancelled: no segment of its tasks starts again (R316). -/
def State.cancelling (s : State) (l : Nat) : Bool := s.mod.launches.any (fun x => x.id == l && x.st == .cancelling)
/-- Tasks that a core may run: it does not hold their contexts pre-empted, and neither a teardown nor a trip has stopped
them. -/
def State.tasksOn (s : State) (core : Nat) : List Task :=
  s.mod.tasks.filter (fun t => t.core = core && !s.mod.health.trip && !(s.sched core).preempted.contains t.ctx && !s.cancelling t.rank.launch)
/-- Capacity of the ready queue; further ready tasks wait behind it in ready-sequence order (R13). -/
def readyCap : Nat := 256
/-- The ready queue of a core, in ready-sequence order. -/
def State.readyQueue (s : State) (core : Nat) : List Task :=
  (sortBy (fun a b => decide (a.readySeq.getD 0 ≤ b.readySeq.getD 0))
    ((s.tasksOn core).filter (fun t => t.readySeq.isSome))).take readyCap
/-- The first of the highest priority: the head of a queue in ready-sequence order. -/
def headOf : List Task → Option Task
  | [] => none
  | t :: ts =>
    match headOf ts with
    | none => some t
    | some u => if t.tcb.prio < u.tcb.prio then some u else some t
/-- The newest TCB of a core's spawn deque. -/
def newestOf : List Task → Option Task
  | [] => none
  | t :: ts =>
    match newestOf ts with
    | none => some t
    | some u => if t.dequeNo.getD 0 < u.dequeNo.getD 0 then some u else some t
/-- The task a core runs next (R13): its ready head, or the newest TCB when its priority is higher. -/
def State.pickTask (s : State) (core : Nat) : Option Task :=
  let head := headOf (s.readyQueue core)
  let top := newestOf ((s.tasksOn core).filter (fun t => t.dequeNo.isSome))
  match head, top with
  | some h, some t => if t.tcb.prio ≤ h.tcb.prio then some h else some t
  | some h, none => some h
  | none, t => t
/-- The budget of a segment in nanoseconds: the context's, which a TCB may lower (R11, R14). -/
def State.budgetOf (s : State) (t : Task) : Nat :=
  let b := (s.ctxRegs t.ctx).budget
  1000 * (if t.tcb.budget = 0 then b else Nat.min t.tcb.budget b)
/-- A popped TCB becomes ready with the next ready sequence number of its core (R13). -/
def State.popped (s : State) (t : Task) : State :=
  if t.dequeNo.isSome then s.setSched { s.sched t.core with seq := (s.sched t.core).seq + 1 } else s
/-- The message of a handler is copied to its activation area just before its first instruction (R168). Bytes of the area
beyond the message stay what they were (DESIGN CHOICE, log 41). -/
def State.deliverMsg (s : State) (t : Task) : State :=
  match t.act with
  | none => s
  | some a => if a.msg.isEmpty then s else let f := actArea (s.actTile a); s.bufWrite f.buf f.base a.msg
/-- The focused core starts a segment of a task. -/
def State.startSegment (s : State) (t : Task) : State :=
  let t := s.readRecord t
  let s := (s.popped t).load t
  let s := (s.updTask t.id (fun k => { k with saved := t.saved, st := .running })).deliverMsg t
  let u : State :=
    { s with
      r := t.saved
      run := { Run.fresh .compute with
        on := true, task := t.id, ctx := t.ctx, visit := s.run.visit, start := s.time, budget := s.budgetOf t,
        resume := t.resume, unread := if (s.recordAt t).isSome then BitVec.allOnes 28 else 0, credits := s.run.credits, stale := s.run.stale, flight := s.run.flight, sup := s.run.sup } }
  u.oweOnce (.budgetExpiry s.core)
/-- The other cores of a quad of which one runs ganged, or waits at a GANG.ON for them to end their segments, run nothing
else (R186). -/
def State.ganged (s : State) (core : Nat) : Bool :=
  (quadOthers core).any (fun c => let r := (s.execOf c).run; r.gang.isSome || r.gangWait)

/-! ## Stealing (R13, R320) -/

/-- Whether a core may run work of a context: its cluster is in the context's partition (R7). -/
def State.inPartition (s : State) (ctx core : Nat) : Bool :=
  ((s.ctx ctx).map (fun c => c.clusters.contains (clusterOf core))).getD false
/-- The oldest TCB of a core's spawn deque that may migrate and that the thief may run: one that may not migrate, of
another partition, or of a context that the thief holds pre-empted, is passed over (R7, R331; DEDUCED, log 34). -/
def State.stealable (s : State) (thief core : Nat) : Option Task :=
  let l := (s.tasksOn core).filter (fun t => t.dequeNo.isSome && t.tcb.migrate && s.inPartition t.ctx thief &&
    !(s.sched thief).preempted.contains t.ctx)
  l.find? (fun t => l.all (fun u => t.dequeNo.getD 0 ≤ u.dequeNo.getD 0))
/-- A core may steal: it runs nothing, its ready queue is empty, and it works. -/
def State.idleCore (s : State) (core : Nat) : Bool :=
  !(s.execOf core).run.on && (s.readyQueue core).isEmpty && !(s.sched core).failed && !s.ganged core
/-- The cores of a context on the die of a core, that core apart: its cluster's first (R13). -/
def State.nearCores (s : State) (ctx core : Nat) : List Nat :=
  let all := (((s.ctx ctx).map (fun c => c.clusters)).getD []).flatMap (fun x => (List.range 8).map (fun i => 8 * x + i))
  let die := all.filter (fun k => k / 8192 == core / 8192 && k != core)
  die.filter (fun k => clusterOf k == clusterOf core) ++ die.filter (fun k => clusterOf k != clusterOf core)
/-- Victims of a thief, in the order of R13: cores of its cluster, then of its die, that have a TCB for it to steal; among
several of a cluster or a die the lower core number first (DESIGN CHOICE, log 34). -/
def State.victims (s : State) (thief : Nat) : List Nat :=
  let has := (s.mod.tasks.filter (fun t => t.dequeNo.isSome && t.tcb.migrate && t.core != thief)).map (fun t => t.core)
  let has := ((sortBy (fun a b => decide (a ≤ b)) has).eraseDups).filter (fun c => (s.stealable thief c).isSome)
  has.filter (fun c => clusterOf c == clusterOf thief) ++
    has.filter (fun c => clusterOf c != clusterOf thief && c / 8192 == thief / 8192)
/-- An idle core looks for a TCB to steal. -/
def State.seekSteal (s : State) (thief : Nat) : State :=
  match s.victims thief with
  | [] => s
  | v :: _ => s.oweOnce (.steal thief v)
/-- STEAL: the thief takes the oldest TCB that it may; the task becomes ready there, a visitor of its rank. A thief that
finds the TCB gone looks again (R13). -/
def execSteal (s : State) : Host.Outcome State Fault Refusal :=
  match s.doing with
  | some (.steal thief victim) =>
    .next (if !s.idleCore thief then s
      else match s.stealable thief victim with
        | none => s.oweOnce (.taskDispatch thief)
        | some t =>
          if thief ≠ victim ∧ clusterOf thief / 1024 = clusterOf victim / 1024
          then (s.updTask t.id (fun t => { t with core := thief, visitor := true })).makeReady t.id
          else s)
  | _ => .next s

/-! ## Pre-emption (R251, R331) -/

/-- DONE becomes 1 once no core still has a pre-emption to take (R331, R332). -/
def State.preemptDone (s : State) : State :=
  if s.mod.scheds.any (fun c => !c.asked.isEmpty) || s.mod.preempt.getLsbD 63 then s
  else ({ s with mod := { s.mod with preempt := s.mod.preempt ||| 0x8000000000000000 } }).raiseIpend 3
/-- A core takes a pre-emption of a context: its waiting tasks' offers and its COLLSTART offers are withdrawn, and it runs
nothing of the context (R251, R259). -/
def State.preemptCore (s : State) (core ctx : Nat) : State :=
  let c := s.sched core
  let s := s.setSched { c with asked := c.asked.filter (· ≠ ctx),
                               preempted := if c.preempted.contains ctx then c.preempted else c.preempted ++ [ctx] }
  let s := (s.mod.tasks.filter (fun t => t.core = core && t.ctx = ctx)).foldl (fun s t => s.withdrawTask t) s
  (s.withdrawColls core (fun k => ((s.launch k.launch).map (fun l => l.ctx == ctx)).getD false)).oweOnce (.taskDispatch core)
/-- Taking the pre-emption requests that wait for the core: at a segment's end, or when it runs nothing (R23 step 5,
R331). -/
def State.takeAsked (s : State) : State :=
  match (s.sched s.core).asked with
  | [] => s
  | l => (l.foldl (fun s ctx => s.preemptCore s.core ctx) s).preemptDone

/-! ## Dispatch (R13) -/

/-- TASK_DISPATCH: an idle core takes the pre-emptions that wait for it, then its next task, or looks for one to steal
(R13). A core whose report waits for room in the report queue starts nothing (R326). -/
def State.dispatchCore (s : State) (core : Nat) : State :=
  let s := s.focus core
  if s.run.on || s.run.kind != .compute then s else
  let s := s.takeAsked
  if s.ganged core || (s.sched core).failed || s.stalled core then s else
  match s.pickTask core with
  | some t => s.startSegment t
  | none => s.seekSteal core
/-- TASK_DISPATCH (R13). -/
def execTaskDispatch (s : State) : Host.Outcome State Fault Refusal :=
  match s.doing with
  | some (.taskDispatch core) => .next (s.dispatchCore core)
  | _ => .next s

/-! ## The end of a segment (R23) -/

/-- Every slot with bound commands is resolved false and advanced, in slot order (R19). -/
def State.closeGuards (s : State) : State :=
  let s := (List.range 8).foldl (fun s i =>
    let k : KReg := BitVec.ofNat 3 i
    if s.r.k[k.toNat].bound then s.resolveGuard k false else s) s
  ({ s with run := { s.run with gq := [] } }).dropUnissued s.run.task false
/-- S bytes at a payload operand of the focused core, or zeros without one (R150, R153). -/
def State.payBytes (s : State) (e : EvKey) (p : Option Pay) : List Byte :=
  let n := ((s.ev e).map (fun x => if x.desc.cls = .none || x.desc.combine.drain then 0 else x.desc.bytes)).getD 0
  match p with
  | some p => s.bufRead (if p.inC then .c else .a) p.off n
  | none => zeros n
/-- A deferred offer, sent at commit (R159). -/
def State.sendDeferred (s : State) (owner : Owner) (e : EvKey) (bs : List Byte) : State :=
  let (ro, s) := s.newRec s.core owner (some s.rank.key) [{ e := e, pay := none, bytes := bs }] .occurred none false
  s.sendOffer ro 0
/-- The idle cores of a core's cluster and die look for a TCB of a context to steal (R13). -/
def State.callThieves (s : State) (ctx home : Nat) : State :=
  ((s.nearCores ctx home).filter (fun k => s.idleCore k)).foldl (fun s k => s.oweOnce (.taskDispatch k)) s
/-- A TCB becomes a task in the spawn deque of its rank's core (R163). Its core looks for work, and so do the idle cores
of its cluster and die that may steal one that may migrate (R13). -/
def State.pushSpawn (s : State) (t : Tcb) : State :=
  let home := s.coreOf s.rank.key
  let c := s.sched home
  let (_, u) := (s.setSched { c with dq := c.dq + 1 }).newTask s.rank.key s.run.ctx home t (.deque c.dq) none
  let u := u.oweOnce (.taskDispatch home)
  if t.migrate then u.callThieves s.run.ctx home else u
/-- A binding made by a task or a launch (R166). A binding that only drains its queue takes the new entry and depth. -/
def State.bindTo (s : State) (e : EvKey) (b : Binding) : State :=
  (s.updEv e (fun x =>
    { x with binding := some (match x.binding with
        | some old => { b with queue := old.queue, running := old.running, held := old.held }
        | none => b) })).tryResolve e
/-- Whether a binding stands on an event. -/
def EvState.bound (x : EvState) : Bool := (x.binding.map (fun b => b.standing)).getD false
/-- Backoff before an attempt that was refused FULL: the next one comes at that time (R242). -/
def State.backOff (s : State) : State :=
  let b := nextBackoff ((s.run.retryAt.map (fun x => x.1)).getD 0)
  { s with run := { s.run with retryAt := some (b, s.time + b) } }
/-- A message of the segment's rank to a BINDING event must not pass one that the rank committed before and that has not
reached the knot (R152, R167). -/
def State.behindOffer (s : State) (e : EvKey) : Bool :=
  ((s.ev e).map (fun x => x.desc.kind == .binding)).getD false &&
    s.pending.any (fun i =>
      let of (ro alt : Nat) : Bool := ((s.recOf ro).map (fun r => r.rank == some s.rank.key && r.live &&
        ((r.alts[alt]?).map (fun a => a.e == e)).getD false)).getD false
      match i with
      | .offer ro alt => of ro alt
      | .fullBackoff ro alt => of ro alt
      | _ => false)
/-- One deferred effect, committed (R23 step 3, R84, R159 to R166, R215). A COLL whose completion event finds no free
record stays in the list for another attempt.
(DEDUCED, log 21). -/
def State.commitOne (s : State) (d : Deferred) : State :=
  let seq := s.r.segseq
  let task := s.run.task
  match d with
  | .signal pc e p => s.sendDeferred (.deferred task s.core pc seq) e (s.payBytes e p)
  | .arm pc e n => s.sendDeferred (.arm task s.core pc seq n) e []
  | .spawn _ t => s.pushSpawn t
  | .bind pc e entry depth =>
    if ((s.ev e).map EvState.bound).getD false then s.refuse task s.core pc seq e .evtDup
    else s.bindTo e { rank := s.rank.key, entry := entry, depth := depth, prio := (s.cur.map (fun t => t.tcb.prio)).getD 0,
                      queue := [], running := [], stage := none, engine := false, standing := true, held := false }
  | .unbind _ e =>
    s.updEv e (fun x => { x with binding := x.binding.map (fun b =>
      if b.rank = s.rank.key then { b with standing := false } else b) })
  | .coll pc e job =>
    match s.job job with
    | none => s
    | some j =>
      let cev := j.cev.getD e
      match s.arm cev 2 (some job) (some j.rank.launch) with
      | (.ok, t) =>
        let t := t.updJob job (fun j => { j with st := .queued })
        let (ro, t) := t.newRec t.core (.coll task t.core pc seq job) (some t.rank.key)
          [{ e := e, pay := none, bytes := [] }] .occurred none false
        t.sendOffer ro 0
      | (.full, _) => ({ s with run := { s.run with deferred := d :: s.run.deferred } }).backOff
      | (_, t) => (t.voidJob job).refuse task s.core pc seq cev .evtDup
/-- Whether a deferred effect of the focused core is still refused FULL at its knot: step 3 ends only when every one has
been accepted (R159, R242). -/
def State.commitBlocked (s : State) : Bool :=
  (s.run.retryAt.map (fun x => decide (s.time < x.2))).getD false || s.mod.recs.any (fun r => !r.backoff.isEmpty && (match r.owner with
    | .deferred t core _ _ => t == s.run.task && core == s.core
    | .arm t core _ _ _ => t == s.run.task && core == s.core
    | .coll t core _ _ _ => t == s.run.task && core == s.core
    | _ => false))
/-- Committing the deferred list in program order, as far as knots accept it. -/
def State.commitList : Nat → State → State
  | 0, s => s
  | n + 1, s =>
    match s.run.deferred with
    | [] => s
    | d :: rest =>
      let wait := match d with
        | .signal _ e _ => s.behindOffer e
        | _ => false
      if s.commitBlocked || wait then s
      else
        let t := State.commitOne { s with run := { s.run with deferred := rest } } d
        if t.run.deferred.length ≤ n then State.commitList n { t with run := { t.run with retryAt := none } } else t
/-- The summary commit: TOGGLE of every pair the segment modified is inverted (R57).
(DEDUCED, log 21). -/
def State.commitPairs (s : State) : State :=
  let toggles := (s.run.pairs.filter (fun p => p.refreshed)).map (fun p => p.off + 3)
  let flip (k : RankSt) : RankSt := toggles.foldl (fun k a => k.write .c a [k.c.get a ^^^ 1]) k
  match s.run.visit, s.cur.bind (fun t => t.act) with
  | none, _ => { s with rank := flip s.rank }
  | some _, none => s.updRank s.rank.key flip
  | some _, some a => s.updEv a.e (fun x => { x with binding := x.binding.map (fun b => { b with stage := b.stage.map (fun g =>
      { g with cores := updWhere (fun c => c.core = s.core) (fun c =>
          match g.foot with
          | some f => if f.buf = .c then { c with bytes := (c.bytes.zipIdx).map (fun y =>
              if toggles.contains (f.base + y.2) then y.1 ^^^ 1 else y.1) } else c
          | none => c) g.cores }) }) })
/-- The wait's own offer, sent last: one record under one stamp, an OFFER for each alternative (R153, R158). -/
def State.sendWait (s : State) (w : WaitSpec) : Nat × State :=
  let alts := w.alts.map (fun a => { a with bytes := s.payBytes a.e a.pay })
  let (ro, s) := s.newRec s.core (.wait s.run.task) (some s.rank.key) alts .occurred w.acc w.drain
  (ro, (List.range alts.length).foldl (fun s i => s.owe (.offer ro i)) s)
/-- The registers that step 4 writes back, SEGSEQ advanced (R20, R23). -/
def State.record (s : State) (mask : Word) : Regs :=
  let r := s.r.live_ mask
  { r with segseq := r.segseq + 1 }
/-- The focused core runs no segment any more. -/
def State.offCore (s : State) : State :=
  let o := s.run
  ({ s with rank := if o.visit.isSome then noRank else s.rank,
            run := { Run.fresh o.kind with sup := o.sup, credits := o.credits, stale := o.stale, flight := o.flight } }).oweOnce
    (.taskDispatch s.core)
/-- A launch with no task left may be complete (R313). -/
def State.checkLaunch (s : State) (l : Nat) : State :=
  if s.mod.tasks.any (fun t => t.rank.launch = l) then s else s.oweOnce (.launchComplete l)
/-- Replacing a binding's stage. -/
def State.setStage (s : State) (e : EvKey) (f : Stage → Stage) : State :=
  s.updEv e (fun x => { x with binding := x.binding.map (fun b => { b with stage := b.stage.map f }) })
/-- A core moves from one stage to another, which holds its own copy of the binding's FOOT region; where the other is gone
it stays (R322). -/
def State.joinStage (s : State) (src dst : EvKey) (core : Nat) : State :=
  match ((s.ev dst).bind (fun x => x.binding)).bind (fun b => b.stage.map (fun g => (b, g))) with
  | none => s.setStage src (fun g => { g with cores := updWhere (fun c => c.core = core) (fun c => { c with joins := none }) g.cores })
  | some (b, g) =>
    let foot := match g.foot with
      | some f => ((s.getRank b.rank).map (fun k => (k.buf f.buf).read f.base f.len)).getD []
      | none => []
    let n : StageCore := { core := core, since := some s.time, bytes := foot }
    ((s.setStage src (fun g => { g with cores := g.cores.filter (fun x => x.core ≠ core) })).setStage dst
      (fun g => { g with cores := g.cores ++ [n] })).oweOnce (.handlerActivation dst)
/-- Where a core goes once its activation of a stage has ended. -/
def State.departure (s : State) (e : EvKey) (core : Nat) : Option EvKey :=
  (((s.ev e).bind (fun x => x.binding)).bind (fun b => b.stage)).bind (fun g =>
    (g.cores.find? (fun c => c.core = core)).bind (fun c => c.joins))
/-- A handler's END consumes its activation: depth frees, the next activation may start, and a core that is to leave the
stage does so (R164, R167, R322). -/
def State.consume (s : State) (a : Act) : State :=
  let s := s.updEv a.e (fun x => { x with binding := x.binding.map (fun b =>
    { b with running := b.running.filter (fun y => y.inst ≠ a.inst) }) })
  let s := (s.tryResolve a.e).oweOnce (.handlerActivation a.e)
  match s.departure a.e s.core with
  | some dst => s.joinStage a.e dst s.core
  | none => s
/-- Steps 3 (the wait's own offer) to 6 of R23, once every deferred effect has been accepted. -/
def State.finishSegment (s : State) (t : Task) (k : Wait) : State :=
  let s := (s.fetchUnits (BitVec.allOnes 28)).commitPairs
  let s := s.updLaunch t.rank.launch (fun l => { l with segs := l.segs + 1 })
  match k with
  | .offer w =>
    let (ro, s) := s.sendWait w
    let rec_ := s.record (withAcc w.mask w.acc)
    let s := s.writeRecord t rec_ (withAcc w.mask w.acc)
    let s := s.updTask t.id (fun t => { t with
      saved := rec_, st := .waiting ro, resume := true, outcome := none, wait := some w, drainFlags := 0,
      kept := withAcc w.mask w.acc, offered := s.r.g })
    s.offCore.takeAsked
  | .yield mask =>
    let rec_ := s.record mask
    let s := s.writeRecord t rec_ mask
    let s := s.updTask t.id (fun t => { t with
      saved := rec_, st := .held, resume := true, outcome := none, wait := none, drainFlags := 0, kept := mask })
    let s := if t.hold then s else s.makeReady t.id
    s.offCore.takeAsked
  | .endTask =>
    let s := { s with mod := { s.mod with tasks := s.mod.tasks.filter (fun x => x.id ≠ t.id) } }
    let s := s.offCore
    let s := match t.act with
      | some a => s.consume a
      | none => s
    (s.checkLaunch t.rank.launch).takeAsked
/-- Step 3: the deferred effects, then the rest; the core stalls while a knot refuses an effect FULL. -/
def State.commitSegment (s : State) (k : Wait) : State :=
  let s := State.commitList s.run.deferred.length s
  if !s.run.deferred.isEmpty || s.commitBlocked then s
  else match s.cur with
    | some t => s.finishSegment t k
    | none => s.offCore
/-- END's successors follow the deferred list (R164). -/
def State.addSuccs (s : State) (k : Wait) : State :=
  match k, s.cur with
  | .endTask, some t =>
    let l := t.tcb.succ.map (fun n => Deferred.signal s.r.pc { ctx := s.run.ctx, ev := n } none)
    { s with run := { s.run with deferred := s.run.deferred ++ l } }
  | _, _ => s
/-- Ganging ends: the state of members 1 to 3 is discarded, and their cores may run again (R186). -/
def State.ungang (s : State) : State :=
  if s.run.gang.isSome then ({ s with run := { s.run with gang := none } }).freeQuad else s
/-- The end of a segment goes on by R23; while accesses are on their way, or a knot refuses an effect FULL, the core stalls
here. -/
def State.endStep (s : State) (k : Wait) : State :=
  if s.run.committing then s.commitSegment k
  else
    s.closeGuards.pumped (fun s =>
      if !s.run.held.isEmpty then s.deadlock
      else
        let s := s.ungang.drainComb
        if !s.quiet then s
        else
          let s := match s.cur with
            | some t => s.copyBack t
            | none => s
          let s : State := { s with run := { s.run with committing := true } }
          (s.addSuccs k).commitSegment k)
/-- A wait, YIELD or END reaches the end of its segment: what it named is captured, and no instruction is fetched any more
(R19, R23, R157). -/
def State.segmentEnd (s : State) (k : Wait) : State := State.endStep { s with run := { s.run with ending := some k } } k

/-! ## The completion phase (R153, R154) -/

/-- The completion phase of a wait of `len` bytes whose outcome is known: it is written to EVSTAT and p1; a YIELD writes
nothing (R153, R165, R198). The wait counts as retired in the segment that it begins (R186; DESIGN CHOICE, log 41). -/
def State.complete (s : State) (len : Nat) : State :=
  let t := s.cur
  let s : State := { s with run := { s.run with resume := false } }
  match t.bind (fun t => t.outcome) with
  | none => s.retire len
  | some o =>
    let flags := if (t.bind (fun t => t.wait)).isSome then (t.map (fun t => t.drainFlags)).getD 0 else 0
    ((s.setStatus o.st o.ev o.inst o.alt).orFlags s.r.fe flags).retire len
/-- Whether the task's offer was withdrawn: its wait runs the offer phase again (R153). -/
def State.withdrawn (s : State) : Bool := (s.cur.bind (fun t => t.outcome.map (fun o => o.st == .withdrawn))).getD false
/-- The state in which an offer phase runs. When the offer was withdrawn, the wait's operands are those of its first
execution: the mask may have discarded their registers, and a pre-emption leaves every byte unchanged (R153, R230, R272,
R287; DEDUCED, log 21). -/
def State.offerPhase (s : State) : State :=
  let g := if s.run.resume && s.withdrawn then (s.cur.map (fun t => t.offered)).getD s.r.g else s.r.g
  { s with r := { s.r with g := g }, run := { s.run with resume := false } }

/-! ## Handler activations (R167, R168) -/

/-- g4 to g7 of a handler at its start. -/
def State.actArgs (s : State) (a : Act) : List Word :=
  let area := actArea (s.actTile a)
  [ if a.msg.isEmpty then 0 else BitVec.ofNat 64 area.base,
    BitVec.ofNat 64 a.msg.length,
    BitVec.ofNat 64 (a.e.ev % 2 ^ 20 + (a.sender.getD 0xFFFFF) % 2 ^ 20 * 2 ^ 32),
    BitVec.ofNat 64 (a.inst % 2 ^ 32) ]
/-- The TCB of a handler task. -/
def State.actTcb (s : State) (a : Act) : Tcb :=
  { entry := a.entry, prio := a.prio, handler := true, gang := false, migrate := false, rank := a.rank.rank, live := 0,
    foot := [], succ := [], budget := 0, arg := s.actArgs a }
/-- The core for a binding's next activation: its rank's own, or for a stage one of its cores that runs none of its
activations, holds none that was aborted and is not to leave; none when it must wait (R167, R322, R330). -/
def State.actCore (s : State) (b : Binding) (a : Act) : Option Nat :=
  match b.stage with
  | none => if b.running.isEmpty then some (s.coreOf a.rank) else none
  | some g =>
    let busy := (s.mod.tasks.filter (fun t =>
      (t.act.map (fun a => b.running.contains a || b.queue.contains a)).getD false)).map (fun t => t.core)
    (((g.cores.filter (fun c => c.joins.isNone)).map (fun c => c.core)).find? (fun c => !busy.contains c))
/-- Starting the next activation of a binding, if it may start. -/
def State.activate (s : State) (e : EvKey) : State :=
  match (s.ev e).bind (fun x => x.binding) with
  | none => s
  | some b =>
    let next := b.queue.filter (fun a => !s.mod.tasks.any (fun t => t.act == some a))
    match next.head?, next.head?.bind (fun a => s.actCore b a) with
    | some a, some core =>
      if b.held && b.stage.isNone then s else
      let s := s.updEv e (fun x => { x with binding := some { b with
        queue := b.queue.filter (fun y => y.inst ≠ a.inst), running := b.running ++ [a] } })
      let ctx := e.ctx
      let (id, s) := s.newTask a.rank ctx core (s.actTcb a) .held (some a)
      s.makeReady id
    | _, _ => s
/-- HANDLER_ACTIVATION (R167, R168). -/
def execHandlerActivation (s : State) : Host.Outcome State Fault Refusal :=
  match s.doing with
  | some (.handlerActivation e) =>
    let t := s.activate e
    let more := ((t.ev e).bind (fun x => x.binding)).map (fun b => b.stage.isSome && !b.queue.isEmpty && t.mod.tasks.length ≠ s.mod.tasks.length)
    .next (if more.getD false then t.oweOnce (.handlerActivation e) else t)
  | _ => .next s

/-! ## Budgets (R11) -/

/-- Whether the running segment's budget has expired. -/
def State.budgetOver (s : State) : Bool :=
  s.run.kind == .compute && s.run.on && !s.run.committing && s.run.start + s.run.budget ≤ s.time
/-- BUDGET_EXPIRY: the time base reaches the end of the segment's budget, and the segment is aborted (R11). -/
def execBudgetExpiry (s : State) : Host.Outcome State Fault Refusal :=
  match s.doing with
  | some (.budgetExpiry core) =>
    let t := s.focus core
    .next (if t.run.kind = .compute ∧ t.run.on ∧ !t.run.committing then
      ({ t with time := Nat.max t.time (t.run.start + t.run.budget) }).trap .budget else t)
  | _ => .next s

end Sys2Proof.Machine
end

