-- ==== Sys2Proof/Machine/Events.lean ====
section
/-! DEFINITION. The event and task instructions (R150 to R169) and the paired drains (R197 to R199). -/

namespace Sys2Proof.Machine

/-! ## Naming an event and its payload (R150 to R152) -/

/-- The event of an operand `name+gB`. -/
def State.evOf (s : State) (ev : BitVec 20) (b : GReg) : EvKey := { ctx := s.run.ctx, ev := s.eventName ev b }
/-- The descriptor of an event in the running task's context; a root-controller or crown core runs in none. -/
def State.desc? (s : State) (e : EvKey) : Option EvState := if s.run.kind = .compute then s.ev e else none
/-- Whether the running task's rank is a member of a group row of its own launch (R8, R151). -/
def State.member (s : State) (row : Nat) : Bool :=
  ((s.ctx s.run.ctx).map (fun c => c.groups.any (fun g =>
    g.row == row && g.launch == s.rank.key.launch && g.ranks.contains s.rankNo))).getD false
/-- Kinds that EVW, EVT, SIGNAL and CHOOSE may name (R151). -/
def sendKind (d : Desc) : Bool := d.kind != .collstart && !d.combine.drain
/-- The party check of the sending instructions (R151). -/
def State.sendParty (s : State) (x : EvState) : Bool := x.desc.kind != .group || s.member x.desc.group
/-- A payload operand before its checks: in C, and its offset. -/
abbrev PayRef := Bool × Word
/-- The operand of an instruction (R150). -/
def State.payRef (s : State) (p : Option PayOp) : Option PayRef := p.map (fun p => (p.inC, s.ea16 p.a p.imm))
/-- The buffer of a payload operand. -/
def payBuf (inC : Bool) : Buf := if inC then .c else .a
/-- The first failing check of R150, or the event's record with the checked operand. With no descriptor only the alignment of
the operand is checked, not whether it lies in its buffer (DESIGN CHOICE, log 41). -/
def State.evCheck (s : State) (e : EvKey) (p : Option PayRef) (kindOk : Desc → Bool) (party : EvState → Bool) :
    Except TrapAt (EvState × Option Pay) :=
  match s.desc? e, p with
  | none, some (c, off) =>
    if off.toNat % 16 ≠ 0 then .error { trap := .align, addr := typedAddr (payBuf c) off }
    else .error { trap := .evtNotMember, addr := 0 }
  | none, none => .error { trap := .evtNotMember, addr := 0 }
  | some x, none =>
    if !kindOk x.desc then .error { trap := .illegal, addr := 0 }
    else if !party x then .error { trap := .evtNotMember, addr := 0 }
    else .ok (x, none)
  | some x, some (c, off) =>
    if !kindOk x.desc ∨ x.desc.cls = .none ∨ (x.desc.cls = .tile ∧ c) then .error { trap := .illegal, addr := 0 }
    else
      match s.bufTrap (payBuf c) off (x.desc.written (s.group e.ctx x.desc.group).length) 16 with
      | some t => .error t
      | none => if party x then .ok (x, some { inC := c, off := off.toNat }) else .error { trap := .evtNotMember, addr := 0 }
/-- A GROUP offer that the segment has already deferred (R152). -/
def State.deferredTo (s : State) (e : EvKey) : Bool :=
  s.run.deferred.any (fun d => match d with | .signal _ f _ => f == e | _ => false)
/-- EVT_DUP of R152, found at execution. -/
def State.dupCheck (s : State) (e : EvKey) (x : EvState) : Option TrapAt :=
  if x.desc.kind = .group ∧ s.deferredTo e then some { trap := .evtDup, addr := 0 } else none
/-- Taking a trap that a check found. -/
def State.trapOf (s : State) (t : TrapAt) : State := s.trap t.trap t.addr
/-- The checks of a sending instruction, the body after them. -/
def State.sending (s : State) (e : EvKey) (p : Option PayRef) (k : EvState → Option Pay → State) : State :=
  match s.evCheck e p sendKind s.sendParty with
  | .error t => s.trapOf t
  | .ok (x, q) =>
    match s.dupCheck e x with
    | some t => s.trapOf t
    | none => k x q
/-- A wait instruction: ILLEGAL at the end of an active loop (R124), which concerns where it stands and so comes before
HANDLER_BLOCK in a handler (R12, R39; DEDUCED, log 18), the completion
phase when the task has waited here; else, and when its offer was withdrawn, the offer phase. -/
def waitStep (h : Hdr) (len : Nat) (f : State → State) (s : State) : Host.Outcome State Fault Refusal :=
  if s.atLoopEnd then .next (s.trap .illegal)
  else checkedStep h len (fun s =>
    if s.run.kind ≠ .compute then s.trap .illegal
    else if s.curHandler then s.trap .handlerBlock
    else if s.run.resume && !s.withdrawn then s.complete len
    else f s.offerPhase) s

/-! ## Waiting (R153, R157, R158) -/

/-- What EVW waits with. -/
def State.evwSpec (s : State) (e : EvKey) (p : Option Pay) (c : GReg) : WaitSpec :=
  { alts := [{ e := e, pay := p, bytes := [] }], acc := none, drain := false, mask := s.liveMask c }
/-- A payload operand that the checks of its list have passed. -/
def checkedPay (p : Option PayRef) : Option Pay := p.map (fun x => { inC := x.1, off := x.2.toNat })
/-- EVW (R153). -/
def execEvw (h : Hdr) (ev : BitVec 20) (b : GReg) (pay : Option PayOp) (c : GReg) (s : State) :
    Host.Outcome State Fault Refusal :=
  waitStep h 12 (fun s => s.sending (s.evOf ev b) (s.payRef pay) (fun _ q =>
    s.segmentEnd (.offer (s.evwSpec (s.evOf ev b) q c)))) s
/-- An entry of an offer list (R157): its event and payload operand; none when a reserved byte is set.
(DEDUCED, log 18). -/
def choiceEntry (ctx : Nat) (bs : List Byte) : Option (EvKey × Option PayRef) :=
  let ev := fld bs 0 4
  let fl := fld bs 4 1
  if ev / 2 ^ 20 ≠ 0 ∨ fl / 8 ≠ 0 ∨ fld bs 5 3 ≠ 0 ∨ !(bs.drop 12).all (fun x => x == 0) then none else
  let buf := bits fl 2 1
  if bitOf fl 0 then
    if buf = 1 ∨ buf = 2 then some ({ ctx := ctx, ev := ev }, some (buf == 2, BitVec.ofNat 64 (fld bs 8 4))) else none
  else if buf = 0 then some ({ ctx := ctx, ev := ev }, none)
  else none
/-- The bytes of entry i of a list at a C offset. -/
def State.entryBytes (s : State) (ea i : Nat) : List Byte := s.bufRead .c (ea + 32 * i) 32
/-- The alternatives of n entries, for a list that has been checked. -/
def State.choiceAlts (s : State) (ea n : Nat) : List Alt :=
  (List.range n).filterMap (fun i => (choiceEntry s.run.ctx (s.entryBytes ea i)).map (fun x =>
    { e := x.1, pay := checkedPay x.2, bytes := [] }))
/-- The first failing check of entry i of a list (R150 to R152, R157). -/
def State.entryTrap (s : State) (ea i : Nat) : Option TrapAt :=
  match choiceEntry s.run.ctx (s.entryBytes ea i) with
  | none => some { trap := .illegal, addr := 0 }
  | some (e, p) =>
    match s.evCheck e p sendKind s.sendParty with
    | .error t => some t
    | .ok (x, _) =>
      match s.dupCheck e x with
      | some t => some t
      | none =>
        if (s.choiceAlts ea i).any (fun a => a.e == e) then some { trap := .evtDup, addr := 0 } else none
/-- Reading and checking an offer list whole, the body after it (R157). -/
def State.choosing (s : State) (ea : Word) (n : Nat) (k : List Alt → State) : State :=
  match s.bufTrap .c ea (32 * n) 32 with
  | some t => s.trapOf t
  | none =>
    s.needs [.buf .c ea.toNat (32 * n)] [] (fun s =>
      s.unlessPoison (typedAddr .c ea) (bufLocs .c ea.toNat (32 * n)) (fun s =>
        match firstTrap ((List.range n).filterMap (fun i => s.entryTrap ea.toNat i)) with
        | some t => s.trapOf t
        | none => k (s.choiceAlts ea.toNat n)))
/-- CHOOSE.W (R157, R158). -/
def execChooseW (h : Hdr) (n : BitVec 5) (a : GReg) (imm : BitVec 16) (c : GReg) (s : State) :
    Host.Outcome State Fault Refusal :=
  waitStep h 8 (fun s => s.choosing (s.ea16 a imm) n.toNat (fun alts =>
    s.segmentEnd (.offer { alts := alts, acc := none, drain := false, mask := s.liveMask c }))) s

/-! ## Trying (R155, R156, R158) -/

/-- The mask bits of a task's own accesses (R144). -/
def ownMask : Nat := 0x33
/-- What a try comes to once its answer is there. -/
def State.tryDone (s : State) (len : Nat) (a : TryAns) (recv : Option CReg) : State :=
  let t : State := { s with run := { s.run with trying := none, answer := none } }
  match a.trap with
  | some x => t.trap x
  | none =>
    let t := t.setStatus a.out.st a.out.ev a.out.inst a.out.alt
    let t := match recv, s.ev { ctx := s.run.ctx, ev := a.out.ev } with
      | some c, some x =>
        if a.bs.isEmpty then t else
        let m := drainInto x.desc (t.acc c) a.bs
        (t.setAcc c m.1).orFlags t.r.fe m.2
      | _, _ => t
    t.retire len
/-- A try: its answer is taken when it has come, the scalar stream stalls while it has not, and otherwise the checks
are made, the release is waited for, and the offer is sent (R155). -/
def tryStep (h : Hdr) (len : Nat) (recv : Option CReg) (f : State → State) (s : State) :
    Host.Outcome State Fault Refusal :=
  checkedStep h len (fun s =>
    match s.run.trying, s.run.answer with
    | some _, some a => s.tryDone len a recv
    | some _, none => s
    | none, _ => f s) s
/-- Sending a try and taking its answer when the knot has it at once. A message to a BINDING event stalls behind one that
the rank has committed and that has not reached the knot (R152, R167). -/
def State.offerTry (s : State) (len : Nat) (alts : List Alt) (acc : Option CReg) (drain : Bool) (recv : Option CReg) :
    State :=
  s.settle ownMask true (fun s =>
    if alts.any (fun a => s.behindOffer a.e) then s else
    let alts := alts.map (fun a => { a with bytes := s.payBytes a.e a.pay })
    let t := s.sendTry alts acc drain
    match t.run.answer with
    | some a => t.tryDone len a recv
    | none => t)
/-- The scratchpad ranges that payload operands read and receive. -/
def State.altRes (s : State) (alts : List Alt) : List Res :=
  alts.filterMap (fun a => match a.pay, s.ev a.e with
    | some p, some x => some (.buf (payBuf p.inC) p.off (x.desc.written (s.group a.e.ctx x.desc.group).length))
    | _, _ => none)
/-- EVT (R155). -/
def execEvt (h : Hdr) (ev : BitVec 20) (b : GReg) (pay : Option PayOp) (s : State) : Host.Outcome State Fault Refusal :=
  tryStep h 12 none (fun s => s.sending (s.evOf ev b) (s.payRef pay) (fun _ q =>
    let alts : List Alt := [{ e := s.evOf ev b, pay := q, bytes := [] }]
    s.needs (s.altRes alts) (s.altRes alts) (fun s => s.offerTry 12 alts none false none))) s
/-- CHOOSE.T (R157, R158). -/
def execChooseT (h : Hdr) (n : BitVec 5) (a : GReg) (imm : BitVec 16) (s : State) : Host.Outcome State Fault Refusal :=
  tryStep h 8 none (fun s => s.choosing (s.ea16 a imm) n.toNat (fun alts =>
    s.needs (s.altRes alts) (s.altRes alts) (fun s => s.offerTry 8 alts none false none))) s

/-! ## Deferred effects (R159 to R166) -/

/-- Entries of the deferred list (R161). -/
def deferCap : Nat := 64
/-- Adding an entry and retiring. -/
def State.defer (s : State) (len : Nat) (d : Deferred) : State :=
  ({ s with run := { s.run with deferred := s.run.deferred ++ [d] } }).retire len
/-- ILLEGAL when the list is full, else the body. -/
def State.ifRoom (s : State) (k : State) : State := if deferCap ≤ s.run.deferred.length then s.trap .illegal else k
/-- SIGNAL (R159). -/
def execSignal (h : Hdr) (ev : BitVec 20) (b : GReg) (pay : Option PayOp) (s : State) : Host.Outcome State Fault Refusal :=
  checkedStep h 12 (fun s => s.ifRoom (s.sending (s.evOf ev b) (s.payRef pay) (fun _ q =>
    s.defer 12 (.signal s.r.pc (s.evOf ev b) q)))) s
/-- ARM after its arity is known. -/
def State.armChecked (s : State) (e : EvKey) (n : Nat) : State :=
  s.ifRoom (match s.evCheck e none (fun d => d.kind == .counted) (fun _ => true) with
    | .error t => s.trapOf t
    | .ok _ => s.defer 12 (.arm s.r.pc e n))
/-- ARM with its arity in g[a] (R160). -/
def execArmReg (h : Hdr) (ev : BitVec 20) (b a : GReg) (s : State) : Host.Outcome State Fault Refusal :=
  checkedStep h 12 (fun s =>
    let n := (s.g a).toNat
    if n = 0 ∨ 65535 < n then s.trap .illegal else s.armChecked (s.evOf ev b) n) s
/-- ARM with its arity in the instruction (R160). -/
def execArmImm (h : Hdr) (ev : BitVec 20) (b : GReg) (n : BitVec 16) (s : State) : Host.Outcome State Fault Refusal :=
  checkedStep h 12 (fun s => s.armChecked (s.evOf ev b) n.toNat) s
/-- A footprint region of a TCB; none when reserved bits are set, an unused region left out (R14). -/
def footOf (x : Nat) : Option (Option Foot) :=
  if bits x 31 2 ≠ 0 then none
  else match bufOfCode (bits x 1 0) with
    | some b => some (some { buf := b, base := 16 * bits x 47 32, len := 16 * bits x 63 48 })
    | none => some none
/-- A successor of a TCB; none when reserved bits are set, an invalid entry left out (R14). -/
def succOf (x : Nat) : Option (Option Nat) :=
  if bits x 30 20 ≠ 0 then none else if bitOf x 31 then some (some (bits x 19 0)) else some none
/-- A TCB from its 128 bytes, when no reserved byte is set and ENTRY is an instruction address (R14, R163). -/
def tcbOf (bs : List Byte) : Option Tcb :=
  let entry := fld bs 0 8
  let fl := fld bs 9 1
  let foots := (List.range 4).map (fun i => footOf (fld bs (24 + 8 * i) 8))
  let succs := (List.range 2).map (fun i => succOf (fld bs (56 + 4 * i) 4))
  if entry / 2 ^ 52 ≠ 0 ∨ entry % 4 ≠ 0 ∨ fl / 8 ≠ 0 ∨ fld bs 10 2 ≠ 0 ∨ fld bs 12 4 / 2 ^ 20 ≠ 0
      ∨ foots.any Option.isNone ∨ succs.any Option.isNone ∨ !((bs.drop 68).take 28).all (fun x => x == 0) then none
  else some { entry := BitVec.ofNat 64 entry, prio := fld bs 8 1, handler := bitOf fl 0, gang := bitOf fl 1,
              migrate := bitOf fl 2, rank := fld bs 12 4, live := BitVec.ofNat 64 (fld bs 16 8),
              foot := foots.filterMap (fun x => x.getD none), succ := succs.filterMap (fun x => x.getD none),
              budget := fld bs 64 4, arg := (List.range 4).map (fun i => BitVec.ofNat 64 (fld bs (96 + 8 * i) 8)) }
/-- The traps of a TCB's successors (R163): an absent descriptor, or a kind other than COUNTED. -/
def State.succTrap (s : State) (n : Nat) : Option TrapAt :=
  match s.desc? { ctx := s.run.ctx, ev := n } with
  | none => some { trap := .evtNotMember, addr := 0 }
  | some x => if x.desc.kind = .counted then none else some { trap := .illegal, addr := 0 }
/-- The contents checks of a spawned TCB (R163). -/
def State.tcbTrap (s : State) (bs : List Byte) : Except TrapAt Tcb :=
  match tcbOf bs with
  | none => .error { trap := .illegal, addr := 0 }
  | some t =>
    if t.handler || t.rank != s.rankNo then .error { trap := .illegal, addr := 0 }
    else match firstTrap (t.succ.filterMap s.succTrap) with
      | some x => .error x
      | none => .ok t
/-- SPAWN (R163). -/
def execSpawn (h : Hdr) (a : GReg) (imm : BitVec 16) (s : State) : Host.Outcome State Fault Refusal :=
  checkedStep h 8 (fun s =>
    let ea := s.ea16 a imm
    s.ifRoom (match s.bufTrap .c ea 128 16 with
      | some t => s.trapOf t
      | none =>
        s.needs [.buf .c ea.toNat 128] [] (fun s => s.unlessPoison (typedAddr .c ea) (bufLocs .c ea.toNat 128) (fun s =>
          match s.tcbTrap (s.bufRead .c ea.toNat 128) with
          | .error t => s.trapOf t
          | .ok t => s.defer 8 (.spawn s.r.pc t))))) s
/-- The end of a USER routine: every party receives the S bytes that it wrote at the offset g7 had at its start, and the
instance is consumed (R249, R303). -/
def State.userDone (s : State) : State :=
  match s.userEvent, s.cur with
  | some e, some t =>
    match s.ev e with
    | none => s.endUser
    | some x =>
      let out := s.bufRead .c ((t.tcb.arg.getD 3 0).toNat) x.desc.bytes
      let s := x.user.foldl (fun s o =>
        s.owe (.commit { ro := o.ro, alt := o.alt, e := e, inst := x.inst, st := .occurred, bs := out })) s
      let s := s.updEv e (fun x => { x with user := [], inst := (x.inst + 1) % 2 ^ 32 })
      s.endUser.owe (.userRoutine e)
  | _, _ => s.endUser
/-- END (R164); on a crown core it ends the USER routine (R303). -/
def execEndTask (h : Hdr) (s : State) : Host.Outcome State Fault Refusal :=
  if s.atLoopEnd then .next (s.trap .illegal)
  else checkedStep h 8 (fun s =>
    match s.run.kind with
    | .compute => s.segmentEnd .endTask
    | .crown => s.closeGuards.pumped (fun s => if !s.run.held.isEmpty then s.deadlock else s.userDone)
    | .root => s.trap .illegal) s
/-- YIELD (R165). -/
def execYield (h : Hdr) (c : GReg) (s : State) : Host.Outcome State Fault Refusal :=
  waitStep h 8 (fun s => s.segmentEnd (.yield (s.liveMask c))) s
/-- Whether a value is an instruction address (R14, R166). -/
def entryOk (x : Word) : Bool := x.toNat / 2 ^ 52 == 0 && x.toNat % 4 == 0
/-- BIND (R166). -/
def execBind (h : Hdr) (ev : BitVec 20) (b a : GReg) (depth : BitVec 16) (s : State) : Host.Outcome State Fault Refusal :=
  checkedStep h 12 (fun s =>
    let e := s.evOf ev b
    if !entryOk (s.g a) then s.trap .illegal else
    s.ifRoom (match s.evCheck e none (fun d => d.kind == .binding) (fun _ => true) with
      | .error t => s.trapOf t
      | .ok (x, _) =>
        if x.bound || s.run.deferred.any (fun d => match d with | .bind _ f _ _ => f == e | _ => false) then s.trap .evtDup
        else s.defer 12 (.bind s.r.pc e (s.g a) depth.toNat))) s
/-- Whether the running task's rank holds the binding that stands on an event (R166). -/
def State.holds (s : State) (x : EvState) : Bool :=
  (x.binding.map (fun y => y.standing && y.rank == s.rank.key && !y.engine)).getD false
/-- UNBIND (R166). -/
def execUnbind (h : Hdr) (ev : BitVec 20) (b : GReg) (s : State) : Host.Outcome State Fault Refusal :=
  checkedStep h 12 (fun s =>
    let e := s.evOf ev b
    s.ifRoom (match s.evCheck e none (fun d => d.kind == .binding) s.holds with
      | .error t => s.trapOf t
      | .ok _ => s.defer 12 (.unbind s.r.pc e))) s

/-! ## EVSEQ (R169) -/

/-- The state word of an event (R169). -/
def evWord (x : EvState) : Word :=
  let need := if x.desc.kind = .counted ∧ x.armed then x.need - x.offers.length else 0
  let inst := if x.desc.kind = .collstart then x.cseq else x.inst
  BitVec.ofNat 64 (need % 2 ^ 16 * 2 ^ 48 + b2n (x.desc.kind == .counted && x.armed) * 2 ^ 32 + inst % 2 ^ 32)
/-- EVSEQ (R169). -/
def execEvseq (h : Hdr) (d : GReg) (ev : BitVec 20) (b : GReg) (s : State) : Host.Outcome State Fault Refusal :=
  checkedStep h 12 (fun s =>
    match s.evCheck (s.evOf ev b) none (fun _ => true) (fun _ => true) with
    | .error t => s.trapOf t
    | .ok (x, _) => (s.setG d (evWord x)).retire 12) s

/-! ## Paired drains (R197 to R199) -/

/-- The kind, class, element, size and modifier checks of a drain (R197). -/
def State.drainKind (s : State) (mov : Option Bool) (d : Desc) : Bool :=
  d.kind == .group && d.combine.drain && d.cls == .tile && (d.elem == .f32 || d.elem == .i32) &&
    (s.group s.run.ctx d.group).length == 2 &&
    (match mov with | some m => m == (d.combine == .drainMov) | none => true)
/-- The smaller rank of the group drains, the larger receives (R197). -/
def State.drainParty (s : State) (drain : Bool) (x : EvState) : Bool :=
  s.member x.desc.group &&
    (let ms := s.group s.run.ctx x.desc.group
     if drain then ms.head? == some s.rankNo else ms.getLast? == some s.rankNo)
/-- The checks of a drain instruction, the body after them. `mov` is CDRAIN's modifier, none for CRECV. -/
def State.drainChecked (s : State) (e : EvKey) (mov : Option Bool) (k : State) : State :=
  match s.evCheck e none (s.drainKind mov) (s.drainParty mov.isSome) with
  | .error t => s.trapOf t
  | .ok _ => k
/-- A waiting drain (R198). -/
def drainWait (h : Hdr) (d : CReg) (ev : BitVec 20) (b c : GReg) (mov : Option Bool) (s : State) :
    Host.Outcome State Fault Refusal :=
  waitStep h 12 (fun s => s.drainChecked (s.evOf ev b) mov
    (s.segmentEnd (.offer { alts := [{ e := s.evOf ev b, pay := none, bytes := [] }], acc := some d, drain := mov.isSome,
                            mask := s.liveMask c }))) s
/-- A trying drain (R199). -/
def drainTry (h : Hdr) (d : CReg) (ev : BitVec 20) (b : GReg) (mov : Option Bool) (s : State) :
    Host.Outcome State Fault Refusal :=
  let recv : Option CReg := if mov.isSome then none else some d
  tryStep h 12 recv (fun s => s.drainChecked (s.evOf ev b) mov
    (s.needs [.c d.toNat] (if mov.isSome then [] else [.c d.toNat]) (fun s =>
      s.offerTry 12 [{ e := s.evOf ev b, pay := none, bytes := [] }] (some d) mov.isSome recv))) s
/-- CDRAIN.W.ADD (R197, R198). -/
def execCdrainWAdd (h : Hdr) (d : CReg) (ev : BitVec 20) (b c : GReg) (s : State) : Host.Outcome State Fault Refusal :=
  drainWait h d ev b c (some false) s
/-- CDRAIN.W.MOV (R197, R198). -/
def execCdrainWMov (h : Hdr) (d : CReg) (ev : BitVec 20) (b c : GReg) (s : State) : Host.Outcome State Fault Refusal :=
  drainWait h d ev b c (some true) s
/-- CDRAIN.T.ADD (R197, R199). -/
def execCdrainTAdd (h : Hdr) (d : CReg) (ev : BitVec 20) (b : GReg) (s : State) : Host.Outcome State Fault Refusal :=
  drainTry h d ev b (some false) s
/-- CDRAIN.T.MOV (R197, R199). -/
def execCdrainTMov (h : Hdr) (d : CReg) (ev : BitVec 20) (b : GReg) (s : State) : Host.Outcome State Fault Refusal :=
  drainTry h d ev b (some true) s
/-- CRECV.W (R197, R198). -/
def execCrecvW (h : Hdr) (d : CReg) (ev : BitVec 20) (b c : GReg) (s : State) : Host.Outcome State Fault Refusal :=
  drainWait h d ev b c none s
/-- CRECV.T (R197, R199). -/
def execCrecvT (h : Hdr) (d : CReg) (ev : BitVec 20) (b : GReg) (s : State) : Host.Outcome State Fault Refusal :=
  drainTry h d ev b none s

end Sys2Proof.Machine
end

