-- ==== Sys2Proof/Machine/Text.lean ====
section
/-! DEFINITION. Vocabulary images and tokenisation (R72 to R75, R218, R345, R346). -/

namespace Sys2Proof.Machine

/-- The 64 bytes of a digest. -/
def digestBytes (d : BitVec 512) : List Byte := natBytes 64 d.toNat
/-- Extending a measurement register (R346). -/
def extend (mr x : BitVec 512) : BitVec 512 := sha3 (digestBytes mr ++ digestBytes x)
/-- n bytes of an image from an offset. -/
def slice (bs : List Byte) (off n : Nat) : List Byte := (bs.drop off).take n

/-! ## The image (R72, R73) -/

/-- The header fields of a vocabulary image. -/
structure Vocab where
  ntok : Nat
  nbucket : Nat
  repl : Nat
  classOff : Nat
  initOff : Nat
  mergeOff : Nat
  detokOff : Nat
  blobOff : Nat
  blobLen : Nat
  sigOff : Nat
  deriving DecidableEq, Repr
/-- Reading the header. -/
def vocabOf (b : List Byte) : Vocab where
  ntok := fld b 8 4
  nbucket := fld b 12 4
  repl := fld b 16 4
  classOff := fld b 20 4
  initOff := fld b 24 4
  mergeOff := fld b 28 4
  detokOff := fld b 32 4
  blobOff := fld b 36 4
  blobLen := fld b 40 4
  sigOff := fld b 44 4
/-- Bytes of an ML-DSA-87 signature and public key (R72, R342). -/
def sigLen : Nat := 4627
def keyLen : Nat := 2592
/-- A header field out of range, or a nonzero reserved byte (RES 1). -/
def headerBad (b : List Byte) : Bool :=
  let v := vocabOf b
  let pow2 := (List.range 17).any (fun i => v.nbucket == 2 ^ (i + 4))
  fld b 0 4 != 0x434F5644 || fld b 4 2 != 1 || fld b 6 2 != 0 || v.ntok < 256 || 262144 < v.ntok || !pow2 ||
    fld b 48 4 != sigLen || !(slice b 52 12).all (fun x => x == 0)
/-- A table or the blob outside the image, or past SIGOFF (RES 2). -/
def layoutBad (b : List Byte) : Bool :=
  let v := vocabOf b
  let bad (off n : Nat) : Bool := v.sigOff < off + n || b.length < off + n
  bad v.classOff 256 || bad v.initOff 1024 || bad v.mergeOff (16 * v.nbucket) || bad v.detokOff (8 * v.ntok) ||
    bad v.blobOff v.blobLen
/-- A merge entry: the pair, its rank and its result; none when empty. -/
structure MergeEntry where
  l : Nat
  r : Nat
  rank : Nat
  res : Nat
  deriving DecidableEq, Repr
/-- Entry i of the merge table. -/
def mergeAt (b : List Byte) (v : Vocab) (i : Nat) : Option MergeEntry :=
  let e := slice b (v.mergeOff + 16 * i) 16
  if fld e 8 4 = 0xFFFFFFFF then none else some { l := fld e 0 4, r := fld e 4 4, rank := fld e 8 4, res := fld e 12 4 }
/-- The start bucket of a pair. -/
def bucketOf (v : Vocab) (x y : Nat) : Nat := (mix (BitVec.ofNat 64 (x % 2 ^ 32 * 2 ^ 32 + y % 2 ^ 32))).toNat % v.nbucket
/-- Probing for a pair from a bucket, over at most n buckets. -/
def probe (b : List Byte) (v : Vocab) (x y : Nat) : Nat → Nat → Option MergeEntry
  | 0, _ => none
  | n + 1, i =>
    match mergeAt b v (i % v.nbucket) with
    | none => none
    | some e => if e.l = x ∧ e.r = y then some e else probe b v x y n (i + 1)
/-- The entry of a pair, if it is in the table. -/
def findMerge (b : List Byte) (v : Vocab) (x y : Nat) : Option MergeEntry := probe b v x y v.nbucket (bucketOf v x y)
/-- The nonempty merge entries. -/
def mergeEntries (b : List Byte) (v : Vocab) : List MergeEntry := (List.range v.nbucket).filterMap (mergeAt b v)
/-- The initial token of a byte value. -/
def initTok (b : List Byte) (v : Vocab) (x : Nat) : Nat := fld b (v.initOff + 4 * x) 4
/-- The class of a byte value (R74). -/
def classOf (b : List Byte) (v : Vocab) (x : Byte) : Nat := fld b (v.classOff + x.toNat) 1
/-- Two entries of one pair. -/
def dupPairs : List MergeEntry → Bool
  | [] => false
  | e :: es => es.any (fun f => f.l == e.l && f.r == e.r) || dupPairs es
/-- A detokenising entry out of the blob, or with reserved bytes set (RES 7). -/
def detokBad (b : List Byte) (v : Vocab) : Bool :=
  (List.range v.ntok).any (fun t =>
    let e := slice b (v.detokOff + 8 * t) 8
    v.blobLen < fld e 0 4 + fld e 4 2 || fld e 6 2 != 0)
/-- The digest that an image's signature covers. -/
def vocabDigest (b : List Byte) : BitVec 512 := sha3 (b.take (vocabOf b).sigOff)
/-- RES of a VOCAB job: the lowest code that applies (R218). Code 2 names a table and the blob alone: a signature that runs
past the image's end does not verify, code 8 (R218; DESIGN CHOICE, log 41). -/
def vocabRes (b : List Byte) (key : Option (List Byte)) : Nat :=
  let v := vocabOf b
  if headerBad b then 1
  else if layoutBad b then 2
  else if (List.range 256).any (fun i => 4 < fld b (v.classOff + i) 1) then 3
  else if v.ntok ≤ v.repl || (List.range 256).any (fun i => v.ntok ≤ initTok b v i) ||
      (mergeEntries b v).any (fun e => v.ntok ≤ e.res) then 4
  else if dupPairs (mergeEntries b v) then 5
  else if (mergeEntries b v).length = v.nbucket ∨
      (mergeEntries b v).any (fun e => findMerge b v e.l e.r != some e) then 6
  else if detokBad b v then 7
  else
    match key with
    | none => 8
    | some k =>
      if v.sigOff + sigLen ≤ b.length ∧ mldsaVerify k (digestBytes (vocabDigest b)) (slice b v.sigOff sigLen) then 0 else 8

/-! ## From bytes to tokens (R74, R75) -/

/-- Whether a new piece begins before a byte of class `c` after one of class `p`. -/
def cutsBefore (p c : Nat) : Bool := c == 4 || p == 4 || (c != p && p != 2)
/-- Cutting a text into pieces: the piece so far, in reverse, its length, and the class of its last byte. -/
def cutPieces (cls : Byte → Nat) : List Byte → List Byte → Nat → List (List Byte)
  | [], [], _ => []
  | [], cur, _ => [cur.reverse]
  | x :: xs, [], _ => cutPieces cls xs [x] 1
  | x :: xs, y :: ys, n =>
    if cutsBefore (cls y) (cls x) || n == 1024 then (y :: ys).reverse :: cutPieces cls xs [x] 1
    else cutPieces cls xs (x :: y :: ys) (n + 1)
/-- The pieces of a text. -/
def pieces (b : List Byte) (text : List Byte) : List (List Byte) := cutPieces (classOf b (vocabOf b)) text [] 0
/-- Adjacent pairs of a token list with their merges. -/
def pairMerges (b : List Byte) (v : Vocab) (ts : List Nat) : List (Nat × MergeEntry) :=
  ((ts.zip ts.tail).zipIdx).filterMap (fun x => (findMerge b v x.1.1 x.1.2).map (fun e => (x.2, e)))
/-- The pair of the least rank, the least index on ties. -/
def bestMerge : List (Nat × MergeEntry) → Option (Nat × MergeEntry)
  | [] => none
  | x :: xs =>
    match bestMerge xs with
    | none => some x
    | some y => if y.2.rank < x.2.rank then some y else some x
/-- Byte-pair merging (R75). -/
def bpeLoop (b : List Byte) (v : Vocab) : Nat → List Nat → List Nat
  | 0, ts => ts
  | n + 1, ts =>
    match bestMerge (pairMerges b v ts) with
    | none => ts
    | some (i, e) => bpeLoop b v n (ts.take i ++ e.res :: ts.drop (i + 2))
/-- The tokens of a piece. -/
def bpe (b : List Byte) (piece : List Byte) : List Nat :=
  bpeLoop b (vocabOf b) piece.length (piece.map (fun x => initTok b (vocabOf b) x.toNat))
/-- The tokens of a text. -/
def tokenise (b : List Byte) (text : List Byte) : List Nat := (pieces b text).flatMap (bpe b)
/-- The same merging over tokens with the numbers of source bytes they stand for. -/
def spanLoop (b : List Byte) (v : Vocab) : Nat → List (Nat × Nat) → List (Nat × Nat)
  | 0, ts => ts
  | n + 1, ts =>
    match bestMerge (pairMerges b v (ts.map (fun x => x.1))) with
    | none => ts
    | some (i, e) =>
      spanLoop b v n (ts.take i ++ (e.res, ((ts.drop i).take 2).foldl (fun n x => n + x.2) 0) :: ts.drop (i + 2))
/-- Source bytes of each token of a text (R334). -/
def tokenSpans (b : List Byte) (text : List Byte) : List Nat :=
  (pieces b text).flatMap (fun p => (spanLoop b (vocabOf b) p.length (p.map (fun x =>
    (initTok b (vocabOf b) x.toNat, 1)))).map (fun x => x.2))
/-- The bytes of a token (R75). -/
def tokenBytes (b : List Byte) (t : Nat) : List Byte :=
  let v := vocabOf b
  let t := if v.ntok ≤ t then v.repl else t
  let e := slice b (v.detokOff + 8 * t) 8
  slice b (v.blobOff + fld e 0 4) (fld e 4 2)

end Sys2Proof.Machine
end

