-- ==== Sys2Proof/Machine/Engines.lean ====
section
/-! DEFINITION. Engine jobs: issue (R208, R209), guards (R18, R125), copies and summary taps (R211 to R214, R367), text
and vocabulary jobs (R217, R218), and the virtual queues (R334). -/

namespace Sys2Proof.Machine

/-! ## Virtual queues (R208, R334) -/

/-- The engine kind of a job. -/
def JobKind.eng : JobKind → EngKind
  | .copy => .copy | .tap _ => .copy | .coll => .coll | .txe => .text | .txd => .text | .vocab => .text
/-- Slots of a virtual queue. -/
def engCap : EngKind → Nat
  | .copy => 64 | .text => 16 | .coll => 8
/-- Place of an engine kind among a rank's job counters. -/
def engIx : EngKind → Fin 3
  | .copy => 0 | .text => 1 | .coll => 2
/-- ENG of TRAPSRC for a job (R327). -/
def JobKind.code (k : JobKind) : Nat :=
  match k.eng with
  | .copy => 0 | .coll => 1 | .text => 2
/-- Unfinished jobs of a rank's virtual queue. -/
def State.vqCount (s : State) (rank : RankKey) (k : EngKind) : Nat :=
  (s.mod.jobs.filter (fun j => j.rank == rank && j.kind.eng == k && j.st != .done)).length
/-- Whether the slot of a rank's next job of a kind holds an unfinished job, or the queue as many as it takes: the slots
form a ring (R208, R334; DEDUCED, log 37). -/
def State.vqFull (s : State) (rank : RankKey) (k : EngKind) : Bool :=
  let n := ((s.rankEntry rank).map (fun r => r.issued[engIx k])).getD 0
  decide (engCap k ≤ s.vqCount rank k) ||
    s.mod.jobs.any (fun j => j.rank == rank && j.kind.eng == k && j.st != .done && j.no % engCap k == n % engCap k)
/-- The count of jobs that a rank has issued of a kind (R208). -/
def State.issued (s : State) (rank : RankKey) (k : EngKind) : Nat := ((s.rankEntry rank).map (fun r => r.issued[engIx k])).getD 0
/-- Taking the next job number. -/
def State.takeNo (s : State) (rank : RankKey) (k : EngKind) : State :=
  s.updRank rank (fun r => { r with issued := r.issued.set (engIx k) (r.issued[engIx k] + 1) })
/-- STATE of a slot (R334). -/
def JobSt.code : JobSt → Nat
  | .queued => 0 | .running => 1 | .guarded => 2 | .deferred => 0 | .held => 1 | .stopped => 1 | .done => 3
/-- A rank's block of virtual queues: header, slots and slot size of a kind (R334). -/
def vqBlock (rank : Nat) (base : Nat) : Nat := base + 0x2000 * rank
def vqHead : EngKind → Nat
  | .copy => 0x000 | .text => 0x040 | .coll => 0x080
def vqSlots : EngKind → Nat
  | .copy => 0x200 | .text => 0x1200 | .coll => 0x1600
def vqSlotSize : EngKind → Nat
  | .copy => 64 | .text => 64 | .coll => 256
/-- The bytes of a job's slot: record, PROG and STATE, and the guard (R334). -/
def Job.slotBytes (j : Job) (guard : Nat) : List Byte :=
  match j.kind.eng with
  | .coll => padTo 128 j.record ++ natBytes 8 j.prog ++ natBytes 1 j.st.code ++ zeros 119
  | _ => padTo 32 j.record ++ natBytes 8 j.prog ++ natBytes 1 j.st.code ++ natBytes 3 guard ++ zeros 20
/-- Writing bytes of the queue array where the context maps it. -/
def State.vqWrite (s : State) (ctx a : Nat) (bs : List Byte) : State :=
  match s.ctxTrap ctx a bs.length needW with
  | some _ => s.ctxReports ctx a bs.length s.core
  | none => s.ctxWrite ctx a bs
/-- A rank's queue as device memory shows it: the header of a kind, and the slot of a job, while no later job has taken it
(R334). -/
def State.mirror (s : State) (j : Job) : State :=
  let k := j.kind.eng
  let blk := vqBlock j.rank.rank (s.ctxRegs j.ctx).vqbase.toNat
  let n := s.issued j.rank k
  let live := s.mod.jobs.filter (fun x => x.rank == j.rank && x.kind.eng == k && x.st != .done)
  let head := ((live.map (fun x => x.no)).head?).getD (n % 65536)
  let guard := ((s.execOf j.core).run.gq.find? (fun g => g.job = j.id)).elim 0 (fun g => g.k.toNat + 2 ^ 8 * g.gen.toNat)
  let s := s.vqWrite j.ctx (blk + vqHead k) (natBytes 4 (head % engCap k) ++ natBytes 4 (n % engCap k) ++ natBytes 8 n)
  let later := s.mod.jobs.any (fun x => x.rank == j.rank && x.kind.eng == k && decide (j.id < x.id) &&
    x.no % engCap k == j.no % engCap k)
  if later then s
  else s.vqWrite j.ctx (blk + vqSlots k + vqSlotSize k * (j.no % engCap k)) (j.slotBytes guard)
/-- Showing a job's progress. -/
def State.mirrorId (s : State) (id : Nat) : State :=
  match s.job id with
  | some j => s.mirror j
  | none => s

/-! ## Starting, ending and discarding jobs -/

/-- The step that performs a job. -/
def Job.step (j : Job) : Owed :=
  match j.kind with
  | .copy => .copyJob j.id | .tap _ => .copyJob j.id
  | .txe => .txeJob j.id | .txd => .txdJob j.id | .vocab => .vocabJob j.id
  | .coll => .copyJob j.id
/-- Whether a job was issued before another (R208, R212). -/
def Job.before (x j : Job) : Bool := x.by_.ord < j.by_.ord || (x.by_.ord == j.by_.ord && x.id < j.id)
/-- Whether a job has been issued: a guarded one when its generation resolves true, a COLL when its segment commits
(R208, R215). -/
def Job.issued (j : Job) : Bool := j.st != .guarded && j.st != .deferred
/-- Jobs that a job waits behind: for copies, earlier ones of its core that have not been taken, since they are taken in
issue order and performed unordered with one another (R212, R267); for text, earlier ones of its rank's queue (R208) and an
earlier VOCAB of its context and handle (R218). -/
def State.behind (s : State) (j : Job) : Bool :=
  s.mod.jobs.any (fun x => x.before j && x.issued && x.st != .done &&
    (match j.kind.eng, x.kind.eng with
     | .copy, .copy => x.core == j.core && x.st == .queued
     | .text, .text => x.rank == j.rank ||
         ((x.kind == .vocab || j.kind == .vocab) && x.ctx == j.ctx && fld x.record 27 1 % 4 == fld j.record 27 1 % 4)
     | _, _ => false))
/-- Whether every access that the task made before the issue has been performed: posted accesses and remote requests of
its core, those of an aborted segment too, and its held commands (R210). -/
def State.forkDone (s : State) (j : Job) : Bool :=
  let r := (s.execOf j.core).run
  r.flight.all (fun f => f.performed || j.by_.ord ≤ f.by_.ord) &&
    (r.out ++ r.stale).all (fun q => j.by_.ord ≤ q.id) &&
    r.held.all (fun e => !e.cmd.accesses || j.by_.ord ≤ e.seq)
/-- Whether a job's engine may take it: it stands behind none, the accesses before its issue have been performed, and no
report of the engine waits for room (R210, R326). -/
def State.startable (s : State) (j : Job) : Bool :=
  j.st == .queued && !s.behind j && s.forkDone j && !s.engStalled j.kind.code j.core
/-- The core of a cluster from which its copy unit takes the next job, round-robin after the one it served last (R212). -/
def State.nextCore (s : State) (cluster : Nat) : Option Nat :=
  let last := ((s.mod.turns.find? (fun x => x.1 = cluster)).map (fun x => x.2 % 8)).getD 7
  ((List.range 8).map (fun i => 8 * cluster + (last + 1 + i) % 8)).find? (fun c =>
    s.mod.jobs.any (fun j => j.kind.eng == .copy && j.core == c && s.startable j))
/-- Whether the next step of a job can be taken now: it runs, or its engine takes it. A copy unit takes its jobs in turn,
and performs those that it has taken side by side (R212, R267; DEDUCED, log 37). -/
def State.jobReady (s : State) (j : Job) : Bool :=
  j.st == .running || (s.startable j && (j.kind.eng != .copy || s.nextCore (clusterOf j.core) == some j.core))
/-- An engine has taken a job: it runs, a VOCAB job with the tenant key that its context holds now (R348), and the copy
unit's turn passes (R212, R334). -/
def State.takeJob (s : State) (j : Job) : State :=
  if j.st ≠ .queued then s else
  let key := (s.ctx j.ctx).bind (fun c => c.key)
  let t := (s.updJob j.id (fun x => { x with
    st := .running, key := if x.reads.isEmpty && !x.filled then key else x.key })).mirrorId j.id
  if j.kind.eng ≠ .copy then t else
  { t with mod := { t.mod with turns :=
      (clusterOf j.core, j.core) :: t.mod.turns.filter (fun x => x.1 ≠ clusterOf j.core) } }
/-- Owing the step of every queued job. -/
def State.startJobs (s : State) : State :=
  s.mod.jobs.foldl (fun s j => if j.st == .queued && j.kind != .coll then s.oweOnce j.step else s) s
/-- The unit whose stamp a job's engine offer carries (R241). -/
def Job.unit (j : Job) : Nat :=
  match j.kind with
  | .copy => copyUnit (clusterOf j.core) | .tap _ => copyUnit (clusterOf j.core)
  | .txd => detokUnit (j.id % 16)
  | .coll => collUnit (j.id % 16)
  | _ => tokUnit (j.id % 16)
/-- The bytes of a job's stores that were dropped at a failed party since the last report are reported, with the issuer's
SEGSEQ (R271, R326). -/
def State.reportGone (s : State) (id : Nat) : State :=
  match s.job id with
  | none => s
  | some j =>
    match j.gone with
    | [] => s
    | a :: as =>
      (s.report { kind := 2, code := Trap.storeLost.code, pc := 0, addr := BitVec.ofNat 64 (as.foldl Nat.min a),
                  msg := BitVec.ofNat 64 j.gone.length, seq := j.by_.seq, src := j.by_.src, task := none }).updJob id
        (fun x => { x with gone := [] })
/-- A job ends: one that ends ABORTED is reported, its engine offers the status, and its launch may be complete (R212, R313,
R326). -/
def State.endJob (s : State) (j : Job) (st : Status) : State :=
  let s := if st = .aborted then s.reportEngine j.kind.code j.core j.rank.rank j.ctx j.ea j.no else s
  let s := (s.reportGone j.id).updJob j.id (fun x => { x with
    st := .done, reads := [], got := [], left := [], res := none, halt := none })
  ((s.mirrorId j.id).engineOffer j.unit j.id st).checkLaunch j.rank.launch
/-- A job that fails: its tap cancelled, ended with ABORTED (R212, R214). -/
def State.failJob (s : State) (j : Job) : State := (s.cancelTap j).endJob j .aborted
/-- Whether a job is in the middle of a row of a copy, or of a collective's step. -/
def Job.midRow (j : Job) : Bool :=
  j.st == .running && (j.filled || !j.reads.isEmpty || j.res.isSome) && (match j.kind with
    | .copy => true | .tap _ => true | .coll => true | _ => false)
/-- A job is to stop, as `st`: now, or at the end of its present row or step (R223, R316). -/
def Job.stopAs (j : Job) (st : JobSt) : Job := if j.midRow then { j with halt := some st } else { j with st := st }
/-- A job that is to stop does so at the end of its row or step; else its next step is owed. -/
def State.haltOr (s : State) (id : Nat) (next : Owed) : State :=
  match (s.job id).bind (fun j => j.halt) with
  | some st => (s.updJob id (fun j => { j with st := st, halt := none })).mirrorId id
  | none => s.owe next
/-- A job held on a missing translation, at an address of its context; the walker reports a malformed entry that it met
there (R336, R367). -/
def State.holdJob (s : State) (j : Job) (va : Nat) : State :=
  ((s.updJob j.id (fun x => { x with st := .held })).reportWalk j.ctx va j.core 0).oweOnce (.jobTranslationResume j.id)
/-- Removing a job that was discarded by its guard (R18); its slot reads done. -/
def State.discardJob (s : State) (id : Nat) : State :=
  let s := (s.updJob id (fun x => { x with st := .done })).mirrorId id
  { s with mod := { s.mod with jobs := s.mod.jobs.filter (fun j => j.id ≠ id) },
           run := { s.run with gq := s.run.gq.filter (fun g => g.job ≠ id),
                               deferred := s.run.deferred.filter (fun d => match d with
                                 | .coll _ _ j => j != id | _ => true) } }

/-! ## Issue (R208, R209) -/

/-- The checks that an issue makes of its record end in a trap or in what the job needs. -/
structure IssueOk where
  kind : JobKind
  record : List Byte
  cev : Option EvKey
  image : List Byte
  deriving DecidableEq, Repr
/-- A job of the running task. -/
def State.mkJob (s : State) (o : IssueOk) (ea : Nat) (st : JobSt) : Job :=
  { id := s.fresh, kind := o.kind, task := s.run.task, ctx := s.run.ctx, rank := s.rank.key, core := s.core,
    no := s.issued s.rank.key o.kind.eng % 65536, record := o.record, ea := ea, prog := 0, st := st, cev := o.cev,
    dropped := false, by_ := s.here o.kind.bits, reads := [], got := [], left := [], filled := false, lost := [],
    gone := [], written := 0, capped := false, image := o.image, marks := [], res := none, key := none, halt := none }
/-- A job enters its queue with the next number, which g[d] receives (R208). -/
def State.enterJob (s : State) (j : Job) (d : GReg) : State :=
  let s := s.takeNo j.rank j.kind.eng
  let t : State := { s with mod := { s.mod with jobs := s.mod.jobs ++ [j] } }
  ((t.bump.mirror j).overwriteAll [d]).setG d (BitVec.ofNat 64 j.no)
/-- What an issue that takes effect does besides: a tap's pair becomes busy, its working copy refreshed (R214). What a
visitor has written to the pair reaches its rank's image first. -/
def State.tapStart (s : State) (k : JobKind) : State :=
  match k with
  | .tap off =>
    let own (r : RankSt) : RankSt :=
      if s.run.visit.isSome then { r with c := r.c.splice off (off + 8192) s.rank.c } else r
    s.updPair s.run.task s.rank.key off (fun r => ((own r).refresh off).setBusy off true)
  | _ => s
/-- Whether an attempt that was refused FULL is still to wait before the next (R242). -/
def State.retryWaits (s : State) : Bool := (s.run.retryAt.map (fun x => decide (s.time < x.2))).getD false
/-- No attempt is waited for any more. -/
def State.retried (s : State) : State := { s with run := { s.run with retryAt := none } }
/-- An unguarded issue: the queue has a slot, the combining buffer leaves, the completion event is armed, and the job is
queued (R208 to R210). It waits for nothing else: the job itself starts after the accesses before it. `try_` is CPY.T,
which never stalls for a slot or a record (R213). -/
def State.issue (s : State) (d : GReg) (o : IssueOk) (ea : Nat) (try_ : Bool) : State :=
  if s.vqFull s.rank.key o.kind.eng then (if try_ then (s.setP 1 false).retire 8 else s)
  else if !try_ && s.retryWaits then s
  else
    let s := s.retried.drainComb
    let j := s.mkJob o ea .queued
    let go (s : State) : State :=
      let s : State := { s with run := { s.run with arms := s.run.arms ++ (if o.cev.isSome then [j.id] else []) } }
      let s := ((s.tapStart o.kind).enterJob j d).oweOnce j.step
      (if try_ then s.setP 1 true else s).retire 8
    match o.cev with
    | none => go s
    | some e =>
      match s.arm e 2 (some j.id) (some j.rank.launch) with
      | (.ok, t) => go t
      | (.full, _) => if try_ then (s.setP 1 false).retire 8 else s.backOff
      | (_, _) => s.trap .evtDup
/-- A guarded issue waits at its engine for its generation (R18, R208, R209). -/
def State.issueGuarded (s : State) (k : KReg) (d : GReg) (o : IssueOk) (ea : Nat) (try_ : Bool) : State :=
  if s.vqFull s.rank.key o.kind.eng then (if try_ then (s.setP 1 false).retire 8 else s)
  else
    let j := s.mkJob o ea .guarded
    let g : GuardIssue := { k := k, gen := s.r.k[k.toNat].gen, job := j.id }
    let s : State := { s with run := { s.run with gq := s.run.gq ++ [g] } }
    let s := (s.bindGuard (some k)).enterJob j d
    (if try_ then s.setP 1 true else s).retire 8
/-- The location check of a record of n bytes, aligned to its size, and its bytes for the checks that follow (R208); `more`
is what the issue reads and writes besides. -/
def State.withRecord (s : State) (ea : Word) (n : Nat) (more : List Res) (k : List Byte → State) : State :=
  match s.bufTrap .c ea n n with
  | some t => s.trapOf t
  | none =>
    s.needs (.buf .c ea.toNat n :: more) more (fun s => s.unlessPoison (typedAddr .c ea) (bufLocs .c ea.toNat n) (fun s =>
      k (s.bufRead .c ea.toNat n)))
/-- An issuing instruction with a record of n bytes (R208). A core that runs no rank's task has no virtual queue
(DESIGN CHOICE, log 2). -/
def issueStep (h : Hdr) (n : Nat) (d a : GReg) (imm : BitVec 16) (inHandler try_ : Bool) (more : List Res)
    (check : State → List Byte → Except TrapAt IssueOk) (s : State) : Host.Outcome State Fault Refusal :=
  checkedStep h 8 (fun s =>
    if s.run.kind ≠ .compute then s.trap .illegal
    else if s.curHandler && !inHandler then s.trap .handlerBlock
    else
      let ea := s.ea16 a imm
      s.withRecord ea n more (fun bs =>
        match check s bs with
        | .error t => s.accessTrap t s.r.pc
        | .ok o =>
          match h.guard with
          | none => s.issue d o ea.toNat try_
          | some k => s.issueGuarded k d o ea.toNat try_)) s
/-- The check of a completion event, none with NOEV (R208 step 7, R209). -/
def State.cevCheck (s : State) (noev : Bool) (n : Nat) : Except TrapAt (Option EvKey) :=
  if noev then .ok none else
  let e : EvKey := { ctx := s.run.ctx, ev := n }
  match s.desc? e with
  | none => .error { trap := .evtNotMember, addr := 0 }
  | some x => if x.desc.kind = .counted then .ok (some e) else .error { trap := .illegal, addr := 0 }

/-! ## Copy records (R211) -/

/-- An endpoint. -/
inductive EndPt where
  | glob (va : Nat)
  | own (b : Buf) (off : Nat)
  | remote (rank : Nat) (b : Buf) (off : Nat)
  deriving DecidableEq, Repr
/-- Reading an endpoint; none where the record traps ENGINE. -/
def endPt (x : Nat) : Option EndPt :=
  let b := bufOfCode (bits x 19 18)
  match x / 2 ^ 62, b with
  | 0, _ => if bits x 61 52 ≠ 0 then none else some (.glob (bits x 51 0))
  | 1, some b => if bits x 61 20 ≠ 0 then none else some (.own b (bits x 17 0))
  | 2, some b => if bits x 61 40 ≠ 0 ∨ b = .c then none else some (.remote (bits x 39 20) b (bits x 17 0))
  | _, _ => none
/-- The fields of a copy record. -/
structure CopyRec where
  src : Option EndPt
  dst : Option EndPt
  len : Nat
  rows : Nat
  sstr : Int
  dstr : Int
  noev : Bool
  cev : Nat
  bad : Bool
  deriving DecidableEq, Repr
/-- Reading a copy record; `bad` says that a field other than the endpoints traps ENGINE. -/
def copyRec (b : List Byte) : CopyRec where
  src := endPt (fld b 0 8)
  dst := endPt (fld b 8 8)
  len := fld b 16 3
  rows := fld b 20 2
  sstr := toSigned 24 (fld b 22 3)
  dstr := toSigned 24 (fld b 25 3)
  noev := bitOf (fld b 19 1) 0
  cev := bits (fld b 28 3) 19 0
  bad := fld b 19 1 / 2 != 0 || fld b 20 2 == 0 || fld b 28 3 / 2 ^ 20 != 0 || fld b 31 1 != 0
/-- First byte of row j. -/
def rowAt (base : Nat) (str : Int) (j : Nat) : Int := (base : Int) + j * str
/-- The check of an own-buffer endpoint: its code, then every row's range, first failing row named (R208, R211). -/
def State.endTrap (s : State) (e : Option EndPt) (len rows : Nat) (str : Int) : Option TrapAt :=
  match e with
  | none => some { trap := .engine, addr := 0 }
  | some (.own b off) =>
    if len = 0 then none else
    ((List.range rows).find? (fun j =>
      rowAt off str j < 0 || b.size < (rowAt off str j).toNat + len || !s.visible b (rowAt off str j).toNat len)).map
        (fun j => { trap := .pagePerm, addr := typedAddr b (BitVec.ofInt 64 (rowAt off str j)) })
  | some _ => none
/-- One piece of a global range with the permissions it needs. -/
abbrev Piece := Int × Need
/-- Pieces of the rows of a global endpoint. -/
def globPieces (e : Option EndPt) (len rows : Nat) (str : Int) (n : Need) : List Piece :=
  match e with
  | some (.glob va) =>
    if len = 0 then [] else
    (List.range rows).flatMap (fun j =>
      let a := rowAt va str j
      if a < 0 then [(a, n)] else (pieceStarts a.toNat len).map (fun (p : Nat) => ((p : Int), n)))
  | _ => []
/-- The first failing check of pieces, page by page in ascending address order (R130, R208). -/
def State.piecesTrap (s : State) (ps : List Piece) : Option TrapAt :=
  firstTrap ((sortBy (fun x y => decide (x.1 ≤ y.1)) ps).filterMap (fun p =>
    let at_ (t : Trap) : TrapAt := { trap := t, addr := BitVec.ofInt 64 p.1 }
    if p.1 < 0 ∨ (2 ^ 52 : Int) ≤ p.1 then some (at_ .pageNp)
    else (pieceTrap (s.leafFor s.run.ctx p.1.toNat p.2.w) p.2).map at_))
/-- A remote rank at or above NRANK (R208, R366). -/
def State.endRank (s : State) (e : Option EndPt) : Option TrapAt :=
  match e with
  | some (.remote rk _ _) => if s.nrank ≤ rk then some { trap := .winNack, addr := BitVec.ofNat 64 rk } else none
  | _ => none
/-- The first of several checks to fail. -/
def firstOf : List (Option TrapAt) → Option TrapAt
  | [] => none
  | some t :: _ => some t
  | none :: ts => firstOf ts
/-- Checks of a copy record, in the order of R208; `pair` is CPYSK's own step. All checks of SRC come before those of DST
(R208 step 3, R211; DESIGN CHOICE, log 41). -/
def State.copyCheck (s : State) (kind : JobKind) (pair : CopyRec → Option TrapAt) (bs : List Byte) :
    Except TrapAt IssueOk :=
  let r := copyRec bs
  let engine : TrapAt := { trap := .engine, addr := 0 }
  match firstOf [if r.bad then some engine else none, s.endTrap r.src r.len r.rows r.sstr,
      s.endTrap r.dst r.len r.rows r.dstr, pair r,
      s.piecesTrap (globPieces r.src r.len r.rows r.sstr needR ++ globPieces r.dst r.len r.rows r.dstr needW),
      s.endRank r.src, s.endRank r.dst] with
  | some t => .error t
  | none =>
    match s.cevCheck r.noev r.cev with
    | .error t => .error t
    | .ok e => .ok { kind := kind, record := bs, cev := e, image := [] }
/-- CPY (R211). -/
def execCpy (h : Hdr) (d a : GReg) (imm : BitVec 16) (s : State) : Host.Outcome State Fault Refusal :=
  issueStep h 32 d a imm false false [] (fun s bs => s.copyCheck .copy (fun _ => none) bs) s
/-- CPY.T (R213). -/
def execCpyT (h : Hdr) (d a : GReg) (imm : BitVec 16) (s : State) : Host.Outcome State Fault Refusal :=
  issueStep h 32 d a imm true true [] (fun s bs => s.copyCheck .copy (fun _ => none) bs) s
/-- The pair conditions of R214, in the order of its table: TYPE is that of the committed copy, which the tap reads. -/
def State.tapTrap (s : State) (x : Word) (r : CopyRec) : Option TrapAt :=
  let off := x.toNat
  if off / 2 ^ 17 ≠ 0 then some { trap := .illegal, addr := 0 }
  else if off % 4096 ≠ 0 then some { trap := .align, addr := typedAddr .c x }
  else if 120 * 1024 < off ∨ !s.visible .c off 8192 then some { trap := .pagePerm, addr := typedAddr .c x }
  else
    let cm := committedOff s.rank.c off
    let t := skTy (s.rank.c.get cm).toNat
    let ok := togOk (s.rank.c.get (off + 3)) && (match t with | some t => skOk t (s.rank.c.read cm 4096) | none => false)
    if !ok then some { trap := .illegal, addr := 0 }
    else if s.pairBusy off then some { trap := .engine, addr := 0 }
    else if s.run.pairs.any (fun p => p.off == off) then some { trap := .illegal, addr := 0 }
    else if r.noev || r.len % skKeySize (t.getD .q) != 0 then some { trap := .engine, addr := 0 }
    else none
/-- CPYSK (R214). It waits for what the held commands do to the pair, which it checks and copies (R15, R126). -/
def execCpysk (h : Hdr) (d b a : GReg) (imm : BitVec 16) (s : State) : Host.Outcome State Fault Refusal :=
  let off := (s.g b).toNat
  let pair := if off / 2 ^ 17 = 0 then [Res.buf .c off 8192] else []
  issueStep h 32 d a imm false false pair (fun s bs => s.copyCheck (.tap off) (s.tapTrap (s.g b)) bs) s

/-! ## Global accesses of a job as it performs them (R367) -/

/-- What a job meets at a range: it may go on, a translation is missing, a permission or kind fails, or a byte waits for a
link that is down (R271). -/
inductive Meets where | ok | missing | refused | link
  deriving DecidableEq, Repr
/-- Checking n bytes at va in a context. -/
def State.meets (s : State) (ctx : Nat) (va : Int) (n : Nat) (need : Need) : Meets :=
  if n = 0 then .ok
  else if va < 0 ∨ (2 ^ 52 : Int) < va + n then .refused
  else
    let ts := (pieceStarts va.toNat n).map (fun a => pieceTrap (s.leafFor ctx a need.w) need)
    if ts.any (fun t => t == some .pageNp) then .missing
    else if ts.any Option.isSome then .refused
    else if (s.ctxPas ctx va.toNat n).any s.waitsLink then .link
    else .ok
/-- The physical address of a checked byte. -/
def State.ctxPa (s : State) (ctx va : Nat) : Nat := ((s.leafFor ctx va).map (fun e => leafPa e va)).getD 0
/-- An access of a job to a failed party is lost: noted for the fences of its task (R146, R271). -/
def State.noteJobLost (s : State) (id bit pa : Nat) : State :=
  s.updJob id (fun x => { x with lost := x.lost ++ (lostParties [pa]).map (fun p => (p, bit)) })
/-- A byte stored by a job: one behind a failed party is dropped (R271). -/
def State.engineByte (s : State) (j : Job) (bit va : Nat) (b : Byte) : State :=
  let pa := s.ctxPa j.ctx va
  if s.failedAt pa then (s.noteJobLost j.id bit pa).updJob j.id (fun x => { x with gone := x.gone ++ [va] })
  else (s.touchFor j.ctx va true j.rank.rank).physWriteAt [(pa, b)]
/-- What reading one byte of a source comes to. -/
inductive ByteRes where
  | hold | fail | link
  | got (b : Byte)
  deriving DecidableEq, Repr
/-- A byte of a global source: poison ends the job, and so does a failed party (R212, R271). -/
def State.globByte (s : State) (ctx : Nat) (va : Int) : ByteRes :=
  match s.meets ctx va 1 needR with
  | .missing => .hold
  | .refused => .fail
  | .link => .link
  | .ok =>
    let pa := s.ctxPa ctx va.toNat
    if s.poisoned (.phys pa 0) then .fail else .got (s.mem.get pa)
/-- A job's state once it has read a byte of its source: the page is touched, the byte kept (R210). -/
def Job.took (j : Job) (i : Nat) (b : Byte) : Job := { j with reads := j.reads.erase i, got := j.got.set i b }
/-- Replacing a job's record. -/
def State.setJob (s : State) (j : Job) : State := s.updJob j.id (fun _ => j)
/-- Which byte of those still to be moved comes next: a job's reads and writes are unordered with its task's accesses, and
with each other (R210; DESIGN CHOICE, log 5). -/
def State.nextByte {α : Type} (s : State) (l : List α) : Option α :=
  match l with
  | [] => none
  | [x] => some x
  | l => l[Config.pick s.tick % l.length]?

/-! ## COPY_JOB (R212, R214, R367) -/

/-- Whether a rank's windows admit a copy's access (R29, R212). -/
def State.admitsCopy (s : State) (j : Job) (rk : Nat) (b : Buf) (off : Int) (n right : Nat) : Bool :=
  match s.getRank { launch := j.rank.launch, rank := rk } with
  | none => false
  | some k => 0 ≤ off && k.wins.toList.any (fun w => winAdmits w b right off.toNat n
      (fun row => s.inRow k.ctx row j.rank))
/-- The rank at a remote endpoint. -/
def Job.peer (j : Job) (rk : Nat) : RankKey := { launch := j.rank.launch, rank := rk }
/-- What the present row's source meets before its first byte is read. -/
def State.canReadRow (s : State) (j : Job) (r : CopyRec) : Meets :=
  match r.src with
  | some (.glob va) => s.meets j.ctx (rowAt va r.sstr j.prog) r.len needR
  | some (.own _ _) => .ok
  | some (.remote rk b off) => if s.admitsCopy j rk b (rowAt off r.sstr j.prog) r.len 57 then .ok else .refused
  | none => .refused
/-- A byte of a rank's buffer as a copy reads it. -/
def State.rankByte (s : State) (key : RankKey) (b : Buf) (a : Nat) : ByteRes :=
  if (s.bufPoisonAt key b a 1).isSome then .fail else .got (((s.getRank key).map (fun k => (k.buf b).get a)).getD 0)
/-- Reading byte i of the present row of a copy's source. -/
def State.readAt (s : State) (j : Job) (r : CopyRec) (i : Nat) : ByteRes :=
  match r.src with
  | some (.glob va) => s.globByte j.ctx (rowAt va r.sstr j.prog + i)
  | some (.own b off) => s.rankByte j.rank b ((rowAt off r.sstr j.prog).toNat + i)
  | some (.remote rk b off) => s.rankByte (j.peer rk) b ((rowAt off r.sstr j.prog).toNat + i)
  | none => .fail
/-- What the present row's destination meets before its first byte is written. -/
def State.canWriteRow (s : State) (j : Job) (r : CopyRec) : Meets :=
  match r.dst with
  | some (.glob va) => s.meets j.ctx (rowAt va r.dstr j.prog) r.len needW
  | some (.own _ _) => .ok
  | some (.remote rk b off) => if s.admitsCopy j rk b (rowAt off r.dstr j.prog) r.len 58 then .ok else .refused
  | none => .refused
/-- What byte i of the present row's destination meets; a row that was admitted at a rank is written whole. -/
def State.canWriteAt (s : State) (j : Job) (r : CopyRec) (i : Nat) : Meets :=
  match r.dst with
  | some (.glob va) => s.meets j.ctx (rowAt va r.dstr j.prog + i) 1 needW
  | _ => .ok
/-- Writing byte i of the present row. -/
def State.writeAt (s : State) (j : Job) (r : CopyRec) (i : Nat) (x : Byte) : State :=
  match r.dst with
  | some (.glob va) => s.engineByte j 3 (rowAt va r.dstr j.prog + i).toNat x
  | some (.own b off) => s.rankWrite j.rank b ((rowAt off r.dstr j.prog).toNat + i) [x]
  | some (.remote rk b off) => s.rankWrite (j.peer rk) b ((rowAt off r.dstr j.prog).toNat + i) [x]
  | none => s
/-- The page of a source byte is touched by the read. -/
def State.touchAt (s : State) (j : Job) (r : CopyRec) (i : Nat) : State :=
  match r.src with
  | some (.glob va) => s.touchFor j.ctx (rowAt va r.sstr j.prog + i).toNat false j.rank.rank
  | _ => s
/-- The address at which a row of a global endpoint holds: that of its first byte that does not translate. -/
def State.heldAt (s : State) (ctx : Nat) (e : Option EndPt) (str : Int) (row n : Nat) : Nat :=
  match e with
  | some (.glob va) =>
    let a := (rowAt va str row).toNat
    ((pieceStarts a n).find? (fun x => (s.leafFor ctx x).isNone)).getD a
  | _ => 0
/-- A read of a failed party's memory is lost to the task's fences (R146, R271). -/
def State.failRead (s : State) (j : Job) (bit : Nat) (va : Int) : State :=
  let pa := s.ctxPa j.ctx va.toNat
  if 0 ≤ va && (s.leafFor j.ctx va.toNat).isSome && s.failedAt pa then s.noteJobLost j.id bit pa else s
/-- What the keys of a row change in a tap's working copy, by offset in buffer C (R214). -/
def State.tapBytes (s : State) (j : Job) (bs : List Byte) : List (Nat × Byte) :=
  match j.kind, s.getRank j.rank with
  | .tap off, some k =>
    if j.dropped then [] else
    (match skTy (k.c.get (workingOff k.c off)).toNat with
      | none => []
      | some t =>
        let w := workingOff k.c off
        let n := skKeySize t
        let keys := (List.range (bs.length / n)).map (fun i => leNat (slice bs (n * i) n))
        let m := (writeSk k w (skAddAll (readSk k t w) keys j.rank.rank).1).c
        ((List.range 4096).map (fun i => (w + i, m.get (w + i)))).filter (fun x => x.2 ≠ k.c.get x.1))
  | _, _ => []
/-- The next of the bytes that a job writes to its rank's buffer C, in an order left free, and `done` after the last (R210,
R214, R217). -/
def State.putBytes (s : State) (j : Job) (l : List (Nat × Byte)) (done : State → State) : State :=
  match s.nextByte l with
  | none => done s
  | some x =>
    ((s.rankWrite j.rank .c x.1 [x.2]).updJob j.id (fun y => { y with res := some (l.filter (fun z => z.1 ≠ x.1)) })).owe j.step
/-- Lines of memory that a job has written whole lose their poison (R361). -/
def State.clearLines (s : State) (pas : List Nat) : State :=
  { s with mod := { s.mod with poison := s.mod.poison.filter (fun l => !coversLine (pas.map (fun a => (a, 0))) l) } }
/-- The same of lines of a rank's buffer. -/
def State.clearBufLines (s : State) (key : RankKey) (b : Buf) (off n : Nat) : State :=
  { s with mod := { s.mod with bufPoison := clearBufPoison s.mod.bufPoison key b off n } }
/-- A row has been written whole. -/
def State.rowWritten (s : State) (j : Job) (r : CopyRec) : State :=
  match r.dst with
  | some (.glob va) => s.clearLines (s.ctxPas j.ctx (rowAt va r.dstr j.prog).toNat r.len)
  | some (.own b off) => s.clearBufLines j.rank b (rowAt off r.dstr j.prog).toNat r.len
  | some (.remote rk b off) => s.clearBufLines (j.peer rk) b (rowAt off r.dstr j.prog).toNat r.len
  | none => s
/-- A row has been moved, and its keys tapped: PROG advances, and the job stops there when it is to (R212, R334). -/
def State.rowDone (s : State) (j : Job) (r : CopyRec) : State :=
  let s := (s.rowWritten j r).reportGone j.id
  ((s.updJob j.id (fun x => { x with
    prog := j.prog + 1, reads := [], got := [], left := [], filled := false, res := none })).mirrorId j.id).haltOr j.id j.step
/-- Every byte of a row has been written: a tap's keys follow, byte by byte (R210, R214). -/
def State.rowEnd (s : State) (j : Job) (r : CopyRec) : State :=
  match j.res with
  | some l => s.putBytes j l (fun s => s.rowDone j r)
  | none =>
    match s.tapBytes j (j.got.read 0 r.len) with
    | [] => s.rowDone j r
    | l => (s.updJob j.id (fun x => { x with res := some l })).owe j.step
/-- Whether the bytes of a row lie on SO pages alone, of which there are several: its pieces are then performed in ascending
order (R269). -/
def State.soRow (s : State) (ctx : Nat) (va : Int) (n : Nat) : Bool :=
  let ps := pieceStarts va.toNat n
  decide (1 < ps.length) && ps.all (fun a => (s.leafFor ctx a).map leafKind == some 0)
/-- The bytes of a row that may be performed now: of a row on SO pages alone, those of its lowest page. -/
def State.rowBytes {α : Type} (s : State) (ctx : Nat) (e : Option EndPt) (str : Int) (row n : Nat) (off : α → Nat)
    (l : List α) : List α :=
  match e with
  | some (.glob va) =>
    let a := rowAt va str row
    if s.soRow ctx a n then
      let page (x : α) : Nat := (a.toNat + off x) / 65536
      l.filter (fun x => l.all (fun y => decide (page x ≤ page y)))
    else l
  | _ => l
/-- Reading one more byte of the present row; the last one makes the row ready to be written. -/
def State.copyRead (s : State) (j : Job) (r : CopyRec) : State :=
  let reads := if j.reads.isEmpty then List.range r.len else j.reads
  let again : State := s.owe (.copyJob j.id)
  match if j.reads.isEmpty then s.canReadRow j r else .ok with
  | .missing => s.holdJob j (s.heldAt j.ctx r.src r.sstr j.prog r.len)
  | .refused => s.failJob j
  | .link => again
  | .ok =>
    match s.nextByte (s.rowBytes j.ctx r.src r.sstr j.prog r.len (fun i => i) reads) with
    | none => again
    | some i =>
      match s.readAt j r i with
      | .hold => s.holdJob j (s.heldAt j.ctx r.src r.sstr j.prog r.len)
      | .fail =>
        (match r.src with
          | some (.glob va) => s.failRead j 2 (rowAt va r.sstr j.prog + i)
          | _ => s).failJob j
      | .link => again
      | .got b =>
        let k := { j with reads := reads }.took i b
        let k := if k.reads.isEmpty then
            { k with filled := true, left := (List.range r.len).map (fun i => (i, k.got.get i)) }
          else k
        ((s.touchAt j r i).setJob k).owe (.copyJob j.id)
/-- Writing one more byte of the present row. -/
def State.copyWrite (s : State) (j : Job) (r : CopyRec) : State :=
  let again : State := s.owe (.copyJob j.id)
  match s.nextByte (s.rowBytes j.ctx r.dst r.dstr j.prog r.len (fun x => x.1) j.left) with
  | none => s.rowEnd j r
  | some (i, b) =>
    match if j.left.length = r.len then s.canWriteRow j r else s.canWriteAt j r i with
    | .missing => s.holdJob j (s.heldAt j.ctx r.dst r.dstr j.prog r.len)
    | .refused => s.failJob j
    | .link => again
    | .ok =>
      let s := (s.writeAt j r i b).updJob j.id (fun x => { x with left := x.left.filter (fun y => y.1 ≠ i) })
      match s.job j.id with
      | some k => if k.left.isEmpty then s.rowEnd k r else s.owe (.copyJob j.id)
      | none => s
/-- One more byte of a copy job, or its end: rows in order, each read whole before it is written (R212, R367). -/
def State.copyStep (s : State) (j : Job) : State :=
  let r := copyRec j.record
  if r.len = 0 ∨ r.rows ≤ j.prog then s.endJob j .occurred
  else if j.filled then s.copyWrite j r
  else s.copyRead j r
/-- Whether a job may go on: it is queued or running. -/
def Job.live (j : Job) : Bool := j.st == .queued || j.st == .running
/-- A step of a live job is taken once its engine takes the job; until then it stays owed. That of a job that has been
discarded shows its slot done (R334). -/
def State.runJob (s : State) (id : Nat) (f : State → Job → State) : State :=
  match s.job id with
  | some j =>
    if j.st = .done then s.mirror j
    else if !j.live then s
    else if s.jobReady j then
      let s := s.takeJob j
      f s ((s.job id).getD j)
    else s.owe j.step
  | none => s
/-- The step that a job waits to take again; a collective's is its group's. -/
def State.stepOf (s : State) (j : Job) : Owed :=
  match s.mod.events.find? (fun x => (x.coll.map (fun c => c.jobs.contains j.id)).getD false) with
  | some x => .collective x.key
  | none => j.step
/-- COPY_JOB: the next byte of a copy. -/
def execCopyJob (s : State) : Host.Outcome State Fault Refusal :=
  match s.doing with
  | some (.copyJob id) =>
    .next (s.runJob id State.copyStep)
  | _ => .next s
/-- JOB_TRANSLATION_RESUME: a held job looks at its pages again (R367). -/
def execJobTranslationResume (s : State) : Host.Outcome State Fault Refusal :=
  match s.doing with
  | some (.jobTranslationResume id) =>
    .next (match s.job id with
      | some j =>
        if j.st = .held then
          let u := s.updJob id (fun x => { x with st := if x.kind = .coll then .running else .queued })
          u.oweOnce (u.stepOf j)
        else s
      | none => s)
  | _ => .next s

/-! ## Text jobs (R217, R218) -/

/-- The fields of a text record (R217). -/
structure TextRec where
  src : Nat
  dst : Nat
  len : Nat
  cap : Nat
  cev : Nat
  vh : Nat
  noev : Bool
  bad : Bool
  deriving DecidableEq, Repr
/-- Reading a text record. -/
def textRec (b : List Byte) : TextRec where
  src := bits (fld b 0 8) 51 0
  dst := bits (fld b 8 8) 51 0
  len := fld b 16 4
  cap := fld b 20 4
  cev := bits (fld b 24 3) 19 0
  vh := fld b 27 1 % 4
  noev := bitOf (fld b 27 1) 2
  bad := fld b 0 8 / 2 ^ 52 != 0 || fld b 8 8 / 2 ^ 52 != 0 || fld b 24 3 / 2 ^ 20 != 0 || fld b 27 1 / 8 != 0
/-- The vocabulary in a handle of a context; none when nothing is loaded. -/
def State.vocabIn (s : State) (ctx h : Nat) : List Byte :=
  ((s.ctx ctx).map (fun c => c.vocab[h % 4]'(Nat.mod_lt _ (by decide)))).getD []
/-- Checks of a text issue after its fields. -/
def State.textCheck (s : State) (kind : JobKind) (bs : List Byte) (bad : Bool) (srcLen dstLen : Nat) (image : List Byte) :
    Except TrapAt IssueOk :=
  let r := textRec bs
  let ends (va n : Nat) (w : Need) := globPieces (some (.glob va)) n 1 0 w
  match firstOf [if bad then some { trap := .engine, addr := 0 } else none,
      s.piecesTrap (ends r.src srcLen needR ++ ends r.dst dstLen needW)] with
  | some t => .error t
  | none =>
    match s.cevCheck r.noev r.cev with
    | .error t => .error t
    | .ok e => .ok { kind := kind, record := bs, cev := e, image := image }
/-- TXE (R217). -/
def execTxe (h : Hdr) (d a : GReg) (imm : BitVec 16) (s : State) : Host.Outcome State Fault Refusal :=
  issueStep h 32 d a imm false false [] (fun s bs =>
    let r := textRec bs
    let v := s.vocabIn s.run.ctx r.vh
    s.textCheck .txe bs (r.bad || 2 ^ 24 < r.len || r.dst % 4 != 0 || v.isEmpty) r.len (4 * r.cap) v) s
/-- TXD (R217). -/
def execTxd (h : Hdr) (d a : GReg) (imm : BitVec 16) (s : State) : Host.Outcome State Fault Refusal :=
  issueStep h 32 d a imm false false [] (fun s bs =>
    let r := textRec bs
    let v := s.vocabIn s.run.ctx r.vh
    s.textCheck .txd bs (r.bad || 2 ^ 22 < r.len || r.src % 4 != 0 || v.isEmpty) (4 * r.len) r.cap v) s
/-- VOCAB (R218). -/
def execVocab (h : Hdr) (d a : GReg) (imm : BitVec 16) (s : State) : Host.Outcome State Fault Refusal :=
  issueStep h 32 d a imm false false [] (fun s bs =>
    let r := textRec bs
    s.textCheck .vocab bs (r.bad || r.len < 64 || 2 ^ 31 < r.len || fld bs 8 8 != 0 || r.cap != 0) r.len 0 []) s
/-- RES is written into the issuer's record, byte by byte in an order left free, and `done` follows (R210, R217). -/
def State.putRes (s : State) (j : Job) (x : Nat) (done : State → State) : State :=
  match j.res with
  | some l => s.putBytes j l done
  | none => (s.updJob j.id (fun y => { y with
      res := some ((natBytes 4 x).zipIdx.map (fun z => (j.ea + 28 + z.2, z.1))) })).owe j.step
/-- The outputs that fit a capacity: each has a size; stops before the first that would exceed it. -/
def fitting {α : Type} (size : α → Nat) : Nat → List α → List α
  | _, [] => []
  | cap, x :: xs => if cap < size x then [] else x :: fitting size (cap - size x) xs
/-- What a text job makes of its source: the bytes, how many tokens or bytes they are, whether CAP stopped it, and how many
bytes of output and of source there are up to each token (R217, R334). -/
structure TextOut where
  bytes : List Byte
  count : Nat
  capped : Bool
  marks : List (Nat × Nat)
  deriving DecidableEq, Repr
/-- The running totals of two lists of sizes. -/
def totals : Nat → Nat → List (Nat × Nat) → List (Nat × Nat)
  | _, _, [] => []
  | a, b, x :: xs => (a + x.1, b + x.2) :: totals (a + x.1) (b + x.2) xs
/-- Reading one more byte of a text job's source; with the last one the job goes on with all of them. -/
def State.textRead (s : State) (j : Job) (n : Nat) (k : State → Job → List Byte → State) : State :=
  let r := textRec j.record
  if n = 0 then k s j [] else
  let reads := if j.reads.isEmpty then List.range n else j.reads
  match s.nextByte reads with
  | none => s.owe j.step
  | some i =>
    match s.globByte j.ctx ((r.src + i : Nat) : Int) with
    | .hold => s.holdJob j (r.src + i)
    | .fail => (s.failRead j 6 ((r.src + i : Nat) : Int)).failJob j
    | .link => s.owe j.step
    | .got b =>
      let m := { j with reads := reads }.took i b
      let s := (s.touchFor j.ctx (r.src + i) false j.rank.rank).setJob m
      if m.reads.isEmpty then k s m (m.got.read 0 n) else s.owe j.step
/-- PROG after a token whose output is whole: the source bytes consumed (R334). -/
def State.textProg (s : State) (j : Job) (written : Nat) : State :=
  match j.marks.reverse.find? (fun m => m.1 = written) with
  | some m => (s.updJob j.id (fun x => { x with prog := m.2 })).mirrorId j.id
  | none => s
/-- Writing one more byte of a text job's output, in order; then RES and the job's end (R217). -/
def State.textWrite (s : State) (j : Job) : State :=
  let r := textRec j.record
  match j.left with
  | [] => s.putRes j (j.written % 2 ^ 31 + b2n j.capped * 2 ^ 31) (fun s =>
      let n := (j.marks.getLast?.map (fun m => m.1)).getD 0
      ((s.clearLines (s.ctxPas j.ctx r.dst n)).textProg j n).endJob j .occurred)
  | (i, b) :: rest =>
    match s.meets j.ctx ((r.dst + i : Nat) : Int) 1 needW with
    | .missing => s.holdJob j (r.dst + i)
    | .refused => s.failJob j
    | .link => s.owe j.step
    | .ok => (((s.engineByte j 6 (r.dst + i) b).updJob j.id (fun x => { x with left := rest })).textProg j (i + 1)).owe j.step
/-- One more byte of a text job. -/
def State.textStep (s : State) (j : Job) (n : Nat) (make : List Byte → TextOut) : State :=
  if j.filled then s.textWrite j
  else s.textRead j n (fun s j bs =>
    let o := make bs
    (s.setJob { j with filled := true, left := o.bytes.zipIdx.map (fun x => (x.2, x.1)), written := o.count,
                       capped := o.capped, marks := o.marks }).owe j.step)
/-- TXE_JOB (R217). -/
def execTxeJob (s : State) : Host.Outcome State Fault Refusal :=
  match s.doing with
  | some (.txeJob id) =>
    .next (s.runJob id (fun s j =>
      let r := textRec j.record
      s.textStep j r.len (fun bs =>
        let ts := tokenise j.image bs
        let l := fitting (fun _ => 1) r.cap ts
        { bytes := l.flatMap (fun t => natBytes 4 t), count := l.length, capped := l.length != ts.length,
          marks := totals 0 0 (((tokenSpans j.image bs).take l.length).map (fun n => (4, n))) })))
  | _ => .next s
/-- TXD_JOB (R217). -/
def execTxdJob (s : State) : Host.Outcome State Fault Refusal :=
  match s.doing with
  | some (.txdJob id) =>
    .next (s.runJob id (fun s j =>
      let r := textRec j.record
      s.textStep j (4 * r.len) (fun bs =>
        let ts := (List.range r.len).map (fun i => tokenBytes j.image (fld bs (4 * i) 4))
        let l := fitting List.length r.cap ts
        { bytes := l.flatten, count := l.flatten.length, capped := l.length != ts.length,
          marks := totals 0 0 (l.map (fun x => (x.length, 4))) })))
  | _ => .next s
/-- Loading an accepted image: the handle, the measurement, and the text jobs issued after it (R218, R345). -/
def State.loadVocab (s : State) (ctx h : Nat) (b : List Byte) (job : Option Nat) : State :=
  let s := s.updCtx ctx (fun c => { c with
    vocab := c.vocab.set (h % 4) b (Nat.mod_lt _ (by decide)), mrv := extend c.mrv (vocabDigest b), nvoc := c.nvoc + 1 })
  match job with
  | none => s
  | some n => { s with mod := { s.mod with jobs := s.mod.jobs.map (fun x =>
      if x.ctx == ctx && (s.job n).any (fun v => v.before x) && x.st != .done && (x.kind == .txe || x.kind == .txd) && (textRec x.record).vh == h
      then { x with image := b } else x) } }
/-- One more step of a VOCAB job: a byte of its image; the check and the load; a byte of RES, and the end (R218, R334,
R348). -/
def State.vocabStep (s : State) (j : Job) : State :=
  let r := textRec j.record
  if j.filled then
    s.putRes j j.written (fun s => s.endJob j (if j.written = 0 then .occurred else .aborted))
  else s.textRead j r.len (fun s j bs =>
    let res := vocabRes bs j.key
    let s := if res = 0 then s.loadVocab j.ctx r.vh bs (some j.id) else s
    ((s.updJob j.id (fun x => { x with filled := true, got := [], written := res, prog := r.len })).mirrorId j.id).owe j.step)
/-- VOCAB_JOB (R218). -/
def execVocabJob (s : State) : Host.Outcome State Fault Refusal :=
  match s.doing with
  | some (.vocabJob id) =>
    .next (s.runJob id (fun s j => s.vocabStep j))
  | _ => .next s

/-! ## Guards (R18, R125, R209) -/

/-- Issues bound to a generation of a slot, in program order. -/
def State.issuesOf (s : State) (k : KReg) : List GuardIssue :=
  s.run.gq.filter (fun g => g.k == k && g.gen == s.r.k[k.toNat].gen)
/-- Discarding the issues bound to the current generation. -/
def State.discardIssues (s : State) (k : KReg) : State := (s.issuesOf k).foldl (fun s g => s.discardJob g.job) s
/-- What arming a generation's issues comes to; those armed before a stall stay armed, and `rest` begins with the issue that
found its event armed. -/
inductive Issued where
  | done (s : State)
  | stall (s : State)
  | dup (s : State) (rest : List GuardIssue)
/-- A guarded job leaves its engine's waiting list: it is issued now, after everything the task has done so far, a text job
under the vocabulary its handle now holds (R208, R210, R217). -/
def State.issueJob (s : State) (j : Job) : State :=
  let i := s.issuer j.by_.pc s.fresh j.kind.bits
  let image := match j.kind with
    | .txe => s.vocabIn j.ctx (textRec j.record).vh
    | .txd => s.vocabIn j.ctx (textRec j.record).vh
    | _ => j.image
  let st : JobSt := if j.kind = .coll then .deferred else .queued
  let s : State := { s with run := { s.run with gq := s.run.gq.filter (fun x => x.job ≠ j.id) } }
  let s := (s.updJob j.id (fun x => { x with st := st, by_ := i, image := image })).bump.mirrorId j.id
  if j.kind = .coll then s else s.oweOnce j.step
/-- The event that an issue of a guarded job arms; a COLL's is armed at commit (R209, R215). -/
def Job.armsAt (j : Job) : Option EvKey := if j.kind = .coll then none else j.cev
/-- Arming the completion events of a generation's issues, in program order (R125, R209). -/
def State.armAll : List GuardIssue → State → Issued
  | [], s => .done s
  | g :: gs, s =>
    match (s.job g.job).bind (fun j => (j.armsAt).map (fun e => (e, j.rank.launch))) with
    | none => State.armAll gs s
    | some (e, l) =>
      if s.run.arms.contains g.job then State.armAll gs s
      else match s.arm e 2 (some g.job) (some l) with
        | (.ok, t) => State.armAll gs { t with run := { t.run with arms := t.run.arms ++ [g.job], retryAt := none } }
        | (.full, _) => .stall s.backOff
        | (_, _) => .dup s (g :: gs)
/-- Issuing jobs of a generation, in program order, once their events are armed: none starts before the GSET retires or
traps (R18, R126). -/
def State.issueAll (s : State) (l : List GuardIssue) : State :=
  l.foldl (fun s g => match s.job g.job with
    | none => s.discardJob g.job
    | some j => (s.tapStart j.kind).issueJob j) s
/-- Resolving a guard slot, with the engine issues bound to it (R18, R125); the combining buffer leaves before a job is
issued (R210). Where an issue finds its event armed the earlier ones stand, and it and the later ones are discarded (R209). -/
def State.guardTo (s : State) (k : KReg) (v : Bool) : State :=
  let fin (s : State) : State := (s.resolveGuard k v).pumped (fun s => s.retire 8)
  if !v then fin (s.discardIssues k)
  else if (s.issuesOf k).isEmpty then fin s
  else if s.retryWaits then s
  else
    let s := s.drainComb
    match State.armAll (s.issuesOf k) s with
    | .done t => fin (t.issueAll (t.issuesOf k))
    | .stall t => t
    | .dup t rest => ((t.issueAll ((t.issuesOf k).take ((t.issuesOf k).length - rest.length))).discardIssues k).trap .evtDup
/-- GSET (R125). -/
def execGset (h : Hdr) (d : KReg) (a : PReg) (s : State) : Host.Outcome State Fault Refusal :=
  checkedStep h 8 (fun s => s.guardTo d (s.p a)) s
/-- GKILL (R125). -/
def execGkill (h : Hdr) (d : KReg) (s : State) : Host.Outcome State Fault Refusal :=
  checkedStep h 8 (fun s => s.guardTo d false) s

end Sys2Proof.Machine
end

