-- ==== Sys2Proof/Machine/Coll.lean ====
section
/-! DEFINITION. Collectives: issue, step, abort and deadline (R215, R216, R255 to R259), and USER routines (R249,
R303). -/

namespace Sys2Proof.Machine

/-! ## Parameter blocks (R215) -/

/-- The fields of a COLL parameter block. -/
structure CollBlk where
  op : Nat
  alg : Nat
  dtype : Nat
  combine : Nat
  group : Nat
  root : Nat
  cev : Nat
  cseq : Nat
  count : Nat
  src : Nat
  dst : Nat
  /-- A reserved field is nonzero, or a field lies outside its range. -/
  bad : Bool
  deriving DecidableEq, Repr
/-- Element size of a DTYPE. -/
def collSize : Nat → Nat
  | 2 => 2 | 3 => 2 | 4 => 4 | 6 => 4 | 7 => 8 | _ => 1
/-- Floating format of a DTYPE. -/
def collFmt : Nat → Option FFmt
  | 0 => some fmtE4M3 | 1 => some fmtE5M2 | 2 => some fmtBF16 | 3 => some fmtF16 | 4 => some fmtF32 | _ => none
/-- Reading a block. -/
def collBlk (b : List Byte) : CollBlk where
  op := fld b 0 1
  alg := fld b 1 1
  dtype := fld b 2 1
  combine := fld b 3 1
  group := fld b 4 2 % 4096
  root := fld b 8 4 % 2 ^ 20
  cev := fld b 12 4 % 2 ^ 20
  cseq := fld b 16 4
  count := fld b 24 8 % 2 ^ 40
  src := fld b 32 8 % 2 ^ 52
  dst := fld b 40 8 % 2 ^ 52
  bad :=
    let sz := collSize (fld b 2 1)
    6 < fld b 0 1 || 3 < fld b 1 1 || 7 < fld b 2 1 || 5 < fld b 3 1 || 4096 ≤ fld b 4 2 || fld b 6 2 != 0 ||
      2 ^ 20 ≤ fld b 8 4 || 2 ^ 20 ≤ fld b 12 4 || fld b 20 4 != 0 || 2 ^ 40 ≤ fld b 24 8 ||
      2 ^ 52 ≤ fld b 32 8 || 2 ^ 52 ≤ fld b 40 8 || fld b 32 8 % sz != 0 || fld b 40 8 % sz != 0 ||
      !(b.drop 48).all (fun x => x == 0)
/-- The further cases that trap ENGINE. -/
def CollBlk.mismatch (c : CollBlk) : Bool :=
  let needs := c.op == 0 || c.op == 1 || c.op == 4
  (needs == (c.combine == 0)) || (4 ≤ c.combine && (collFmt c.dtype).isSome) ||
    (c.op == 6 && (c.dtype != 0 || c.count != 1))
/-- ROOT must be a member for REDUCE and BROADCAST and 0 for other operations. -/
def CollBlk.rootOk (c : CollBlk) (ms : List Nat) : Bool :=
  if c.op = 1 ∨ c.op = 2 then ms.contains c.root else c.root = 0
/-- Bytes of C elements. -/
def CollBlk.unit (c : CollBlk) : Nat := c.count * collSize c.dtype
/-- Bytes that a member of rank r gives, of M members (R216). -/
def CollBlk.srcLen (c : CollBlk) (m r : Nat) : Nat :=
  match c.op with
  | 2 => if r = c.root then c.unit else 0
  | 4 => m * c.unit
  | 5 => m * c.unit
  | 6 => 4096
  | _ => c.unit
/-- Bytes that a member of rank r receives (R216). -/
def CollBlk.dstLen (c : CollBlk) (m r : Nat) : Nat :=
  match c.op with
  | 1 => if r = c.root then c.unit else 0
  | 3 => m * c.unit
  | 5 => m * c.unit
  | 6 => 4096
  | _ => c.unit
/-- The fields on which all members must agree (R216). -/
def CollBlk.key (c : CollBlk) : List Nat := [c.op, c.alg, c.dtype, c.combine, c.count, c.root]

/-! ## COLL (R215) -/

/-- The COLLSTART event that a launch declares for a group row. -/
def State.collEvent (s : State) (ctx launch row : Nat) : Option EvState :=
  s.mod.events.find? (fun x => x.key.ctx == ctx && x.launch == some launch && x.desc.kind == .collstart &&
    x.desc.group == row)
/-- Whether the segment has already deferred a COLL on an event. -/
def State.collDeferred (s : State) (e : EvKey) : Bool :=
  s.run.deferred.any (fun d => match d with | .coll _ f _ => f == e | _ => false)
/-- The checks of a block, in the order of R208 with R215's own after the address checks. -/
def State.collCheck (s : State) (bs : List Byte) : Except TrapAt (EvKey × IssueOk) :=
  let c := collBlk bs
  let engine : TrapAt := { trap := .engine, addr := 0 }
  let ms := s.group s.run.ctx c.group
  let ends (va n : Nat) (w : Need) := globPieces (some (.glob va)) n 1 0 w
  match firstOf [if c.bad then some engine else none,
      s.piecesTrap (ends c.src (c.srcLen ms.length s.rankNo) needR ++ ends c.dst (c.dstLen ms.length s.rankNo) needW)] with
  | some t => .error t
  | none =>
    match s.collEvent s.run.ctx s.rank.key.launch c.group with
    | none => .error engine
    | some x =>
      if !s.member c.group then .error { trap := .evtNotMember, addr := 0 }
      else if s.collDeferred x.key then .error { trap := .evtDup, addr := 0 }
      else if c.mismatch || !c.rootOk ms then .error engine
      else
        match s.cevCheck false c.cev with
        | .error t => .error t
        | .ok e => .ok (x.key, { kind := .coll, record := bs, cev := e, image := [] })
/-- A checked COLL takes its number and its entry of the deferred list; a guarded one waits for its generation. -/
def State.deferColl (s : State) (g : Option KReg) (d : GReg) (e : EvKey) (o : IssueOk) (ea : Nat) : State :=
  if s.vqFull s.rank.key .coll then s
  else
    let j := s.mkJob o ea (if g.isSome then .guarded else .deferred)
    let s : State := { s with run := { s.run with deferred := s.run.deferred ++ [.coll s.r.pc e j.id] } }
    let s : State := match g with
      | some k =>
        let q : GuardIssue := { k := k, gen := s.r.k[k.toNat].gen, job := j.id }
        ({ s with run := { s.run with gq := s.run.gq ++ [q] } }).bindGuard g
      | none => s
    (s.enterJob j d).retire 8
/-- COLL (R215). -/
def execColl (h : Hdr) (d a : GReg) (imm : BitVec 16) (s : State) : Host.Outcome State Fault Refusal :=
  checkedStep h 8 (fun s =>
    if s.run.kind ≠ .compute then s.trap .illegal
    else if s.curHandler then s.trap .handlerBlock
    else s.ifRoom (
      let ea := s.ea16 a imm
      s.withRecord ea 128 [] (fun bs =>
        match s.collCheck bs with
        | .error t => s.accessTrap t s.r.pc
        | .ok (e, o) => s.deferColl h.guard d e o ea.toNat))) s

/-! ## What a collective computes (R216) -/

/-- The combine of blocks of n bytes, left to right.. -/
def CollBlk.fold (c : CollBlk) (n : Nat) (cs : List (List Byte)) : List Byte :=
  let w := collSize c.dtype
  match c.combine with
  | 1 => perElem w n cs (sumBy (collFmt c.dtype) w)
  | 2 => perElem w n cs (extBy true (collFmt c.dtype) w)
  | 3 => perElem w n cs (extBy false (collFmt c.dtype) w)
  | 4 => perElem 1 n cs (fun xs => xs.foldl (· ||| ·) 0)
  | 5 => perElem 1 n cs (fun xs => xs.foldl (· &&& ·) 255)
  | _ => []
/-- Block i of a contribution. -/
def CollBlk.block (c : CollBlk) (i : Nat) (b : List Byte) : List Byte := (b.drop (i * c.unit)).take c.unit
/-- A chain of summary merges in ascending rank order (R71); none when a block is no valid summary of the first's
type.
(DEDUCED, log 25). -/
def mergeChain : List Byte → List (Nat × List Byte) → Option (List Byte)
  | acc, [] => some acc
  | acc, (r, b) :: rest =>
    match skTy (fld b 0 1) with
    | none => none
    | some t =>
      if skOk t b && skOk t acc && fld acc 0 1 == fld b 0 1 then
        mergeChain ((skMerge (skParse t b) (skParse t acc) r).1.bytes (bitOf (fld b 2 1) 1) (BitVec.ofNat 8 (fld b 3 1))) rest
      else none
/-- The bytes that the member of index i and rank r receives; none when a SUMMARYMERGE meets an invalid block. -/
def CollBlk.result (c : CollBlk) (ranks : List Nat) (cs : List (List Byte)) (i r : Nat) : Option (List Byte) :=
  match c.op with
  | 0 => some (c.fold c.unit cs)
  | 1 => some (if r = c.root then c.fold c.unit cs else [])
  | 2 => some (((ranks.zip cs).find? (fun x => x.1 = c.root)).elim [] (fun x => x.2))
  | 3 => some cs.flatten
  | 4 => some (c.fold c.unit (cs.map (c.block i)))
  | 5 => some (cs.flatMap (c.block i))
  | _ =>
    match ranks.zip cs with
    | [] => some []
    | x :: rest =>
      match skTy (fld x.2 0 1) with
      | some t => if skOk t x.2 then mergeChain x.2 rest else none
      | none => none

/-! ## Running, ending and aborting (R256, R257) -/

/-- The members' jobs of a collective in progress, in ascending rank order. -/
def State.collJobs (s : State) (c : CollRun) : List Job := c.jobs.filterMap s.job
/-- A member's job of a collective ends: one that ends ABORTED is reported (R257, R326); the lines that a whole result covers
lose their poison (R361). -/
def State.endMember (s : State) (m : Nat) (j : Job) (st : Status) : State :=
  let c := collBlk j.record
  let s := if st = .aborted then s.reportEngine j.kind.code j.core j.rank.rank j.ctx j.ea j.no
    else s.clearLines (s.ctxPas j.ctx c.dst (c.dstLen m j.rank.rank))
  ((s.reportGone j.id).updJob j.id (fun y => { y with st := .done, reads := [], got := [], left := [], halt := none })).mirrorId j.id
/-- A collective ends: the sequence number advances, and each member's completion event receives the engine's offer. -/
def State.endColl (s : State) (e : EvKey) (st : Status) : State :=
  match s.ev e with
  | none => s
  | some x =>
    match x.coll with
    | none => s
    | some c =>
      let s := s.setEv { x with cseq := (x.cseq + 1) % 2 ^ 32, coll := none }
      let js := s.collJobs c
      let s := js.foldl (fun s j =>
        let s := s.endMember js.length j st
        (s.engineOffer (collUnit (x.desc.knot % 16)) j.id st).checkLaunch j.rank.launch) s
      s.tryResolve e
/-- The DST of every member of an aborted collective is unspecified (R257). -/
def State.spoilDst (s : State) (js : List Job) : State :=
  js.foldl (fun s j =>
    let c := collBlk j.record
    let n := c.dstLen js.length j.rank.rank
    match s.meets j.ctx c.dst n needW with
    | .ok => ((s.freeBytes j.id n).zipIdx).foldl (fun s x => s.engineByte j 6 (c.dst + x.2) x.1) s
    | _ => s) s
/-- A unit detects that a collective must abort, and sends ABORT (R257). -/
def State.abortColl (s : State) (e : EvKey) : State :=
  match s.ev e with
  | none => s
  | some x =>
    match x.coll with
    | none => s
    | some c => if c.aborting then s else (s.setEv { x with coll := some { c with aborting := true } }).owe (.abortColl e)
/-- ABORT: every engine and knot drops the collective's state (R257). -/
def execAbort (s : State) : Host.Outcome State Fault Refusal :=
  match s.doing with
  | some (.abortColl e) =>
    .next (match (s.ev e).bind (fun x => x.coll) with
      | some c => if c.aborting then (s.spoilDst (s.collJobs c)).endColl e .aborted else s
      | none => s)
  | _ => .next s
/-- Whether two byte ranges meet. -/
def meet (a n b m : Nat) : Bool := 0 < n && 0 < m && a < b + m && b < a + n
/-- DST of a member overlaps a SRC in another way than as the same range of the same member in an ALLREDUCE: it is left
unspecified (R216; DESIGN CHOICE, log 9). -/
def clashes (js : List Job) (j : Job) : Bool :=
  let c := collBlk j.record
  js.any (fun k =>
    let d := collBlk k.record
    meet c.dst (c.dstLen js.length j.rank.rank) d.src (d.srcLen js.length k.rank.rank) &&
      !(c.op == 0 && k.id == j.id && c.dst == c.src))
/-- The step index of every member's slot (R334): 1 once every source has been read. -/
def State.collProg (s : State) (js : List Job) (n : Nat) : State :=
  js.foldl (fun s j => (s.updJob j.id (fun x => { x with prog := n })).mirrorId j.id) s
/-- The first step of a collective: each member's source is still to be read (R216, R256). -/
def State.startColl (s : State) (js : List Job) (c : CollBlk) : State :=
  js.foldl (fun s j =>
    (s.updJob j.id (fun x => { x with st := .running, reads := List.range (c.srcLen js.length j.rank.rank) })).mirrorId j.id) s
/-- The end of a step of a collective: it stops there when its jobs are to stop; else its next step is owed (R223). -/
def State.collNext (s : State) (js : List Job) (next : Owed) : State :=
  if js.any (fun j => ((s.job j.id).bind (fun x => x.halt)).isSome) then
    js.foldl (fun s j => (s.updJob j.id (fun x => { x with st := x.halt.getD .stopped, halt := none })).mirrorId j.id) s
  else s.owe next
/-- Every source has been read: what each member's destination receives; an invalid summary block aborts the collective
(R71, R216). -/
def State.combineColl (s : State) (e : EvKey) (js : List Job) (c : CollBlk) : State :=
  let m := js.length
  let srcs := js.map (fun j => j.got.read 0 (c.srcLen m j.rank.rank))
  let outs := (js.zipIdx).map (fun x => (x.1, c.result (js.map (fun j => j.rank.rank)) srcs x.2 x.1.rank.rank))
  if outs.any (fun o => o.2.isNone) then s.abortColl e
  else
    let s := outs.foldl (fun s o =>
      let bs := o.2.getD []
      let bs := if clashes js o.1 then s.freeBytes o.1.id bs.length else bs
      s.updJob o.1.id (fun x => { x with filled := true, left := bs.zipIdx.map (fun x => (x.2, x.1)) })) s
    (s.collProg js 1).collNext js (.collective e)
/-- One more byte of a collective: a byte of a source is read, or a byte of a destination written, each translated again as
it is performed (R216, R256, R367). -/
def State.collStep (s : State) (e : EvKey) (js : List Job) (c : CollBlk) : State :=
  let again : State := s.owe (.collective e)
  if js.any (fun j => !j.filled) then
    match s.nextByte (js.flatMap (fun j => j.reads.map (fun i => (j, i)))) with
    | none => s.combineColl e js c
    | some (j, i) =>
      let va := (collBlk j.record).src + i
      match s.globByte j.ctx (va : Int) with
      | .hold => s.holdJob j va
      | .fail => (s.failRead j 6 (va : Int)).abortColl e
      | .link => again
      | .got b => ((s.touchFor j.ctx va false j.rank.rank).setJob (j.took i b)).owe (.collective e)
  else
    match s.nextByte (js.flatMap (fun j => j.left.map (fun x => (j, x)))) with
    | none => (s.collProg js 2).endColl e .occurred
    | some (j, i, b) =>
      let va := (collBlk j.record).dst + i
      match s.meets j.ctx (va : Int) 1 needW with
      | .missing => s.holdJob j va
      | .refused => s.abortColl e
      | .link => again
      | .ok => ((s.engineByte j 6 va b).updJob j.id (fun x => { x with left := x.left.filter (fun y => y.1 ≠ i) })).owe
          (.collective e)
/-- COLLECTIVE: the next step of a group's collective (R216, R256). Blocks that disagree abort it before any step. -/
def execCollective (s : State) : Host.Outcome State Fault Refusal :=
  match s.doing with
  | some (.collective e) =>
    .next (match (s.ev e).bind (fun x => x.coll) with
      | none => s
      | some run =>
        if run.aborting then s else
        let js := s.collJobs run
        if js.any (fun j => j.st == .stopped || j.st == .held) then s else
        match js with
        | [] => s.endColl e .aborted
        | j :: _ =>
          let c := collBlk j.record
          if js.any (fun x => (collBlk x.record).key != c.key) then s.endColl e .aborted
          else if js.any (fun x => x.st == .queued && s.engStalled x.kind.code x.core) then s.owe (.collective e)
          else if js.any (fun x => x.st == .queued) then ((s.startColl js c).oweOnce (.collectiveDeadline e)).owe (.collective e)
          else s.collStep e js c)
  | _ => .next s
/-- The time a collective has from its occurrence, in nanoseconds (R257). -/
def collLimit (d : Desc) : Nat := 1000 * (if d.deadline = 0 then 1000 else d.deadline)
/-- COLLECTIVE_DEADLINE: a contribution has not arrived in time (R257). -/
def execCollectiveDeadline (s : State) : Host.Outcome State Fault Refusal :=
  match s.doing with
  | some (.collectiveDeadline e) =>
    .next (match s.ev e with
      | some x =>
        match x.coll with
        | some c => ({ s with time := Nat.max s.time (c.start + collLimit x.desc) }).abortColl e
        | none => s
      | none => s)
  | _ => .next s

/-! ## USER routines (R249, R303) -/

/-- The entry of a routine in a context's table; none when it is absent or not readable. -/
def State.routine (s : State) (ctx n : Nat) : Option Word :=
  match s.ctx ctx with
  | none => none
  | some c =>
    let va := c.routbase.toNat + 8 * n
    if c.routbase = 0 then none
    else match s.ctxTrap ctx va 8 needR with
      | some _ => none
      | none =>
        let x := leNat (s.ctxRead ctx va 8)
        if x = 0 ∨ 2 ^ 52 ≤ x ∨ x % 4 ≠ 0 then none else some (BitVec.ofNat 64 x)
/-- Reading an entry of that table touches its page, and the walker reports a malformed one that it meets (R336, R337). -/
def State.readRoutine (s : State) (ctx n core : Nat) : State :=
  match s.ctx ctx with
  | none => s
  | some c => if c.routbase = 0 then s else s.readRange ctx core (c.routbase.toNat + 8 * n, 8)
/-- Number that stands for the crown core of a knot in this model (DESIGN CHOICE, log 2). -/
def crownCore (knot : Nat) : Nat := 0x9000 + knot
/-- Nanoseconds that a routine has. -/
def userLimit : Nat := 20000
/-- Bytes from one contribution to the next.
(DEDUCED, log 25). -/
def userStride (size : Nat) : Nat := (size + 15) / 16 * 16
/-- The TCB of a routine: g4 the contributions, g5 M, g6 S, g7 where the result goes. -/
def userTcb (entry : Word) (m size : Nat) : Tcb :=
  { entry := entry, prio := 0, handler := false, gang := false, migrate := false, rank := 0, live := 0, foot := [],
    succ := [], budget := 0,
    arg := [0, BitVec.ofNat 64 m, BitVec.ofNat 64 size, BitVec.ofNat 64 (m * userStride size)] }
/-- A crown core starts the routine of an event. -/
def State.startUser (s : State) (e : EvKey) (x : EvState) (entry : Word) : State :=
  let core := crownCore x.desc.knot
  let s := s.focus core
  let tcb := userTcb entry x.user.length x.desc.bytes
  let act : Act := { e := e, inst := x.inst, msg := [], stamp := { t := 0, u := 0 }, sender := none, rank := { launch := 0, rank := 0 }, entry := entry,
                     prio := 0 }
  let (id, s) := s.newTask { launch := 0, rank := 0 } e.ctx core tcb .running (some act)
  let img := (x.user.zipIdx).foldl (fun (k : RankSt) o => k.write .c (o.2 * userStride x.desc.bytes) o.1.bytes)
    (RankSt.empty { launch := 0, rank := 0 } e.ctx core)
  let u : State := { s with
    r := startRegs tcb
    rank := img
    run := { Run.fresh .crown with on := true, task := id, ctx := e.ctx, start := s.time, budget := userLimit } }
  u.owe (.userRoutineOverrun e)
/-- USER_ROUTINE: a crown core takes the routine of an instance; one that is busy, or that waits to report, takes it later. With no instance
waiting the knot looks whether the event is ready again (R249, R303). -/
def execUserRoutine (s : State) : Host.Outcome State Fault Refusal :=
  match s.doing with
  | some (.userRoutine e) =>
    .next (match s.ev e with
      | none => s
      | some x =>
        if x.user.isEmpty then s.tryResolve e
        else if (s.execOf (crownCore x.desc.knot)).run.on || s.engStalled 3 (crownCore x.desc.knot) then s.owe (.userRoutine e)
        else
          let entry := s.routine e.ctx x.desc.arg
          let s := s.readRoutine e.ctx x.desc.arg (crownCore x.desc.knot)
          match entry with
          | some entry =>
            if Buf.size .c < x.user.length * userStride x.desc.bytes + x.desc.bytes then s.userFail e
            else s.startUser e x entry
          | none => s.userFail e)
  | _ => .next s
/-- A routine that runs past its time fails, on the focused crown core (R249). -/
def State.overrun (s : State) : State := s.trap .budget
/-- USER_ROUTINE_OVERRUN (R249). -/
def execUserRoutineOverrun (s : State) : Host.Outcome State Fault Refusal :=
  match s.doing with
  | some (.userRoutineOverrun e) =>
    .next (match s.ev e with
      | none => s
      | some x =>
        let t := s.focus (crownCore x.desc.knot)
        if t.run.on && t.run.kind == .crown && t.userEvent == some e then
          ({ t with time := Nat.max t.time (t.run.start + t.run.budget) }).overrun
        else s)
  | _ => .next s

end Sys2Proof.Machine
end

