-- ==== Sys2Proof/Machine/Launch.lean ====
section
/-! DEFINITION. Launch records (R306 to R311): reading, checking (R9, R237, R255, R303, R307, R309), measuring (R346),
and placement (R238, R317, R318). -/

namespace Sys2Proof.Machine

/-! ## Event descriptors (R236, R237, R239) -/

/-- The kind of a code. -/
def evKindOf : Nat → Option EvKind
  | 0 => some .group | 1 => some .counted | 2 => some .binding | 3 => some .collstart | _ => none
/-- The combine of a code. -/
def combineOf : Nat → Option Combine
  | 0 => some .none | 1 => some .pick | 2 => some .sum | 3 => some .min | 4 => some .max | 5 => some .bor
  | 6 => some .band | 7 => some .gather | 8 => some .exchange | 9 => some .broadcast | 10 => some .user
  | 11 => some .drainAdd | 12 => some .drainMov | _ => none
/-- The payload class of a code. -/
def classCode : Nat → Option PayClass
  | 0 => some .none | 1 => some .inline | 2 => some .tile | _ => none
/-- The element type of a code. -/
def elemOf : Nat → Option EvElem
  | 0 => some .raw | 1 => some .i8 | 2 => some .i32 | 3 => some .i64 | 4 => some .f32 | 5 => some .bf16 | 6 => some .f16
  | _ => none
/-- Scope codes of a descriptor (R236). -/
def scopeOf : Nat → Option Scope
  | 2 => some .die | 3 => some .mod | 4 => some .sys | _ => none
/-- BYTES fits its class. -/
def bytesOk (c : PayClass) (n : Nat) : Bool :=
  match c with
  | .none => n == 0
  | .inline => 1 ≤ n && n ≤ 64
  | .tile => 16 ≤ n && n ≤ 16384 && n % 16 == 0
/-- Reading a descriptor's 16 bytes; none when a field is reserved or out of its range. The KNOT field is read as it
stands: a launch image must hold 0 there. -/
def descOf (b : List Byte) : Option Desc :=
  match evKindOf (fld b 0 1), combineOf (fld b 1 1), classCode (fld b 2 1 % 4), elemOf (fld b 2 1 / 16) with
  | some k, some c, some l, some e =>
    let n := fld b 4 2
    let grp := fld b 6 2
    let arg := fld b 8 4
    let knot := fld b 14 2
    let grouped := k == .group || k == .collstart
    if bits (fld b 2 1) 3 2 ≠ 0 ∨ fld b 3 1 ≠ 0 ∨ !bytesOk l n ∨ 4096 ≤ grp ∨ (!grouped && grp != 0) ∨ 2 ^ 20 ≤ arg ∨
        (c = .user ∧ 256 ≤ arg) ∨ (c ≠ .user ∧ c ≠ .pick ∧ arg ≠ 0) ∨ 2 ^ 11 ≤ knot then none
    else some { kind := k, combine := c, cls := l, elem := e, bytes := n, group := grp, arg := arg,
                deadline := fld b 12 2, knot := knot % 256, scope := (scopeOf (knot / 256)).getD .mod }
  | _, _, _, _ => none
/-- Combines that act element by element (R239). -/
def Combine.elementwise : Combine → Bool
  | .sum => true | .min => true | .max => true | .bor => true | .band => true | _ => false
/-- The rules of R239 and R237 on a descriptor, with the members of its row. -/
def descOk (d : Desc) (ms : List Nat) : Bool :=
  let m := ms.length
  let row := match d.kind with
    | .group => !ms.isEmpty
    | .collstart => !ms.isEmpty
    | _ => true
  let unit := if d.cls = .inline ∨ d.combine.elementwise then d.bytes % d.elem.size == 0 else true
  let rule := match d.combine with
    | .none => d.cls == .none || d.kind == .binding
    | .pick => d.kind == .group && d.cls != .none && ms.contains d.arg
    | .sum => d.kind == .group && d.cls == .inline && d.elem != .raw
    | .min => d.kind == .group && d.cls == .inline && d.elem != .raw
    | .max => d.kind == .group && d.cls == .inline && d.elem != .raw
    | .bor => d.kind == .group && d.cls == .inline && d.elem.fmt.isNone
    | .band => d.kind == .group && d.cls == .inline && d.elem.fmt.isNone
    | .gather => d.kind == .group && d.cls == .inline && decide (m * d.bytes ≤ 64)
    | .exchange => d.kind == .group && d.cls == .inline && d.bytes % m == 0
    | .broadcast => d.kind == .group && d.cls != .none
    | .user => d.kind == .group && d.cls == .inline
    | .drainAdd => d.kind == .group && d.cls == .tile && m == 2 && (d.elem == .i32 || d.elem == .f32)
    | .drainMov => d.kind == .group && d.cls == .tile && m == 2 && (d.elem == .i32 || d.elem == .f32)
  row && unit && rule

/-! ## Reading a context's tables -/

/-- n bytes of a context's memory; none when they are not readable. -/
def State.table (s : State) (ctx va n : Nat) : Option (List Byte) :=
  if n = 0 then some []
  else if 2 ^ 52 < va + n then none
  else match s.ctxTrap ctx va n needR with
    | some _ => none
    | none => some (s.ctxRead ctx va n)
/-- Row j of GTAB: its members, strictly ascending and below N (R310). -/
def State.groupRow (s : State) (ctx gtab nrank : Nat) (head : List Byte) : Option (List Nat) :=
  let n := fld head 4 4
  match s.table ctx (gtab + 4 * fld head 0 4) (4 * n) with
  | none => none
  | some b =>
    let ms := (List.range n).map (fun i => fld b (4 * i) 4)
    if (ms.zip ms.tail).all (fun x => x.1 < x.2) && ms.all (fun x => x < nrank) then some ms else none
/-- The rows of a launch (R310). -/
def State.groupRows (s : State) (ctx gtab ngroup nrank : Nat) : Option (List (List Nat)) :=
  match s.table ctx gtab (8 * ngroup) with
  | none => none
  | some b => (List.range ngroup).mapM (fun j => s.groupRow ctx gtab nrank (slice b (8 * j) 8))
/-- The descriptors of a launch. -/
def State.descRows (s : State) (ctx etab nevent : Nat) : Option (List Desc) :=
  match s.table ctx etab (16 * nevent) with
  | none => none
  | some b => (List.range nevent).mapM (fun j =>
      let x := slice b (16 * j) 16
      if fld x 14 2 ≠ 0 then none else descOf x)
/-- A binding-table entry (R311); none when it is out of range. -/
def bindRec (b : List Byte) : Option BindRec :=
  let fl := fld b 22 1
  let stage := bitOf fl 0
  let engine := bitOf fl 1
  let mn := fld b 18 2
  let mx := fld b 20 2
  match footOf (fld b 24 8) with
  | none => none
  | some foot =>
    if 2 ^ 20 ≤ fld b 0 4 ∨ 4 ≤ fl ∨ fld b 23 1 ≠ 0 ∨ fld b 16 2 = 0 ∨ !entryOk (BitVec.ofNat 64 (fld b 8 8)) ∨
        (stage && (mn == 0 || mx < mn || 1024 < mx)) ∨ (!stage && (mn != 0 || mx != 0)) ∨
        (engine && (stage || fld b 4 4 != 0 || fld b 8 8 != 0)) then none
    else some { ev := fld b 0 4, rank := fld b 4 4, entry := BitVec.ofNat 64 (fld b 8 8), depth := fld b 16 2,
                min := mn, max := mx, stage := stage, engine := engine, foot := foot }
/-- The bindings of a launch. -/
def State.bindRows (s : State) (ctx btab nbind : Nat) : Option (List BindRec) :=
  match s.table ctx btab (32 * nbind) with
  | none => none
  | some b => (List.range nbind).mapM (fun j => bindRec (slice b (32 * j) 32))
/-- The format descriptors of a launch, by number (R307). -/
def State.fmtRows (s : State) (ctx ftab fmask : Nat) : Option (List (Nat × List Byte)) :=
  let ns := (List.range 16).filter (fun n => bitOf fmask n)
  if ns.isEmpty then some []
  else if ftab = 0 then none
  else match s.table ctx ftab (16 * ns.length) with
    | none => none
    | some b => (ns.zipIdx).mapM (fun x =>
        let d := slice b (16 * x.2) 16
        if (fmtOf d).isSome then some (x.1, d) else none)
/-- The W, A and C images of a launch (R306). -/
def State.imageRows (s : State) (ctx images : Nat) : Option (List (List Byte)) :=
  if images = 0 then some [[], [], []]
  else match s.table ctx images 48 with
    | none => none
    | some b => [Buf.w, Buf.a, Buf.c].zipIdx.mapM (fun x =>
        let va := fld b (16 * x.2) 8
        let n := fld b (16 * x.2 + 8) 8
        if Buf.size x.1 < n then none else s.table ctx va n)
/-- The entry TCB template; a launch of no ranks has none (R306). A template with the handler flag makes the launch
ILLEGAL (DESIGN CHOICE, log 26: R163 forbids the flag to SPAWN and no rule speaks of an entry template). -/
def State.entryTcb (s : State) (ctx va nrank : Nat) : Option Tcb :=
  if nrank = 0 then some { entry := 0, prio := 0, handler := false, gang := false, migrate := false, rank := 0, live := 0,
                           foot := [], succ := [], budget := 0, arg := [] }
  else match s.table ctx va 128 with
    | none => none
    | some b =>
      match tcbOf b with
      | some t => if t.handler then none else some t
      | none => none
/-- A link slot of WAITEV or SIGEV: valid with its link, or not; none when a reserved bit is set. -/
def linkSlot (x : Nat) : Option (Option Nat) :=
  if bits x 30 8 ≠ 0 then none else if bitOf x 31 then some (some (x % 256)) else some none
/-- A slot of ARMEV. -/
def armSlot (x : Nat) : Option (Option (Nat × Nat)) :=
  if bits x 30 24 ≠ 0 ∨ (bitOf x 31 && bits x 23 8 == 0) then none
  else if bitOf x 31 then some (some (x % 256, bits x 23 8)) else some none
/-- A hint record (R318) has a kind of the three, and no reserved byte set: bytes 15:13 of kind 1 and 15:9 of kind 2 hold
nothing (R4). -/
def hintOk (h : List Byte) : Bool :=
  match fld h 8 1 with
  | 0 => true
  | 1 => fld h 13 3 == 0
  | 2 => fld h 9 7 == 0
  | _ => false
/-- The hint records of a launch. -/
def State.hintRows (s : State) (ctx va n : Nat) : Option (List (List Byte)) :=
  match s.table ctx va (16 * n) with
  | none => none
  | some b =>
    let hs := (List.range n).map (fun i => slice b (16 * i) 16)
    if hs.all hintOk then some hs else none
/-- The four words of a slot group at an offset of the record. -/
def slots {α : Type} (f : Nat → Option (Option α)) (b : List Byte) (off : Nat) : Option (List (Nat × α)) :=
  ((List.range 4).mapM (fun i => (f (fld b (off + 4 * i) 4)).map (fun x => (i, x)))).map
    (fun l => l.filterMap (fun x => x.2.map (fun y => (x.1, y))))
/-- The valid SIGEV slots of a record, whatever else is wrong with it (R309). -/
def sigevOf (b : List Byte) : List (Nat × Nat) :=
  (List.range 4).filterMap (fun i =>
    let x := fld b (112 + 4 * i) 4
    if bitOf x 31 then some (i, x % 256) else none)

/-! ## The checks of R309 -/

/-- Launches of a context that are accepted and not yet complete (R304). -/
def State.liveLaunches (s : State) (ctx : Nat) : List Launch :=
  s.mod.launches.filter (fun l => l.ctx == ctx && l.st != .ended)
/-- Ranges of rows or names that overlap; empty ones overlap nothing. -/
def overlaps (a n b m : Nat) : Bool := n != 0 && m != 0 && a < b + m && b < a + n
/-- Fields of a record that are out of range, or reserved and not zero (R306). -/
def recordBad (b : List Byte) : Bool :=
  let va (off : Nat) : Bool := 2 ^ 52 ≤ fld b off 8
  fld b 0 2 != 1 || 4 ≤ fld b 2 1 || fld b 3 1 != 0 || 2 ^ 20 < fld b 4 4 || va 8 || fld b 8 8 % 128 != 0 || va 16 ||
    4096 ≤ fld b 24 2 || 4096 < fld b 26 2 || 4096 < fld b 24 2 + fld b 26 2 || 2 ^ 20 ≤ fld b 28 4 ||
    0xFFF00 < fld b 28 4 + fld b 32 4 || va 36 || va 44 || 4096 < fld b 52 2 || fld b 54 2 != 0 || va 56 ||
    4096 < fld b 64 4 || fld b 68 4 != 0 || va 72 || fld b 72 8 % 64 != 0 || va 128 || va 136 || fld b 144 2 % 2 != 0 ||
    !((b.drop 146).all (fun x => x == 0))
/-- The 256 bytes at FMTBASE are mapped as R338 requires. -/
def State.fmtMapped (s : State) (ctx : Nat) : Bool :=
  match s.leafFor ctx (s.ctxRegs ctx).fmtbase.toNat with
  | none => false
  | some e => leafKind e ≤ 1 && leafR e && leafW e && inVault (leafPa e (s.ctxRegs ctx).fmtbase.toNat)
/-- Reading a record and its tables whole; none where the record is ILLEGAL by itself. -/
def State.readLaunch (s : State) (ctx : Nat) (b : List Byte) : Option LaunchRec :=
  if recordBad b then none else
  let n := fld b 4 4
  match s.groupRows ctx (fld b 16 8) (fld b 26 2) n, s.descRows ctx (fld b 36 8) (fld b 32 4),
        s.bindRows ctx (fld b 44 8) (fld b 52 2), s.fmtRows ctx (fld b 136 8) (fld b 144 2),
        s.imageRows ctx (fld b 128 8), s.entryTcb ctx (fld b 8 8) n, s.hintRows ctx (fld b 56 8) (fld b 64 4) with
  | some gs, some ds, some bs, some fs, some is, some t, some hs =>
    match slots armSlot b 80, slots linkSlot b 96, slots linkSlot b 112 with
    | some arms, some waits, some sigs =>
      some { nrank := n, runOnCancel := bitOf (fld b 2 1) 0, irq := bitOf (fld b 2 1) 1, tcb := t, gbase := fld b 24 2,
             groups := gs, descs := ds, ebase := fld b 28 4, nevent := fld b 32 4, crec := fld b 72 8,
             armev := arms.map (fun x => x.2), waitev := waits.map (fun x => x.2), sigev := sigs, binds := bs,
             hints := hs, images := is, fmts := fs }
    | _, _, _ => none
  | _, _, _, _, _, _, _ => none
/-- Members of a row that a launch declares. -/
def LaunchRec.row (r : LaunchRec) (n : Nat) : List Nat := if n < r.gbase then [] else r.groups.getD (n - r.gbase) []
/-- The descriptor of an event name that a launch declares. -/
def LaunchRec.descAt (r : LaunchRec) (ev : Nat) : Option Desc := if ev < r.ebase then none else r.descs[ev - r.ebase]?
/-- A binding names a BINDING event of the launch, held by one of its ranks; an engine's carries 64 raw bytes (R289,
R311). -/
def LaunchRec.bindOk (r : LaunchRec) (b : BindRec) : Bool :=
  match r.descAt b.ev with
  | some d =>
    d.kind == .binding && b.rank < r.nrank && (!b.engine || (d.cls == .inline && d.elem == .raw && d.bytes == 64)) &&
      (r.binds.filter (fun x => x.ev == b.ev)).length == 1
  | none => false
/-- Clusters of a context's partition hold this many cores. -/
def Ctx.coreCount (c : Ctx) : Nat := 8 * c.clusters.length
/-- A record that breaks R237, R303 or another ILLEGAL condition of R309, its fields being in range. -/
def State.launchIllegal (s : State) (c : Ctx) (r : LaunchRec) : Bool :=
  let live := s.liveLaunches c.id
  r.descs.any (fun d => !descOk d (r.row d.group)) ||
    r.descs.any (fun d => d.combine == .user && (s.routine c.id d.arg).isNone) ||
    live.any (fun l => overlaps r.gbase r.groups.length l.decl.gbase l.decl.groups.length ||
      overlaps r.ebase r.nevent l.decl.ebase l.decl.nevent) ||
    256 * c.coreCount < r.nrank ||
    (r.nrank == 0 && (!r.groups.isEmpty || r.nevent != 0 || !r.binds.isEmpty)) ||
    (!r.fmts.isEmpty && !s.fmtMapped c.id) ||
    r.fmts.any (fun f => live.any (fun l => l.decl.fmts.any (fun g => g.1 == f.1 && g.2 != f.2))) ||
    r.binds.any (fun b => !r.bindOk b)
/-- Some rank belongs to more than 8 groups (R9). -/
def LaunchRec.tooManyGroups (r : LaunchRec) : Bool :=
  let all := r.groups.flatten
  all.any (fun x => 8 < all.count x)
/-- Groups with a COLLSTART event (R255). -/
def LaunchRec.collGroups (r : LaunchRec) : Nat :=
  (((r.descs.filter (fun d => d.kind == .collstart)).map (fun d => d.group)).eraseDups).length
/-- Bytes of staging that a launch reserves: 64 KiB for each member of each group with a COLLSTART event (R255). -/
def LaunchRec.staging (r : LaunchRec) : Nat :=
  let gs := ((r.descs.filter (fun d => d.kind == .collstart)).map (fun d => d.group)).eraseDups
  gs.foldl (fun n g => n + 65536 * (r.row g).length) 0
/-- The device memory of a context that can hold staging: the vaults of its partition below their record areas (R30,
R333).
(DESIGN CHOICE, log 26). -/
def Ctx.deviceBytes (c : Ctx) : Nat := c.coreCount * (6 * 2 ^ 20)
/-- Staging that a context's live launches hold. -/
def State.stagingUsed (s : State) (ctx : Nat) : Nat :=
  (s.liveLaunches ctx).foldl (fun n l => n + l.decl.staging) 0
/-- Group slots of the 16 collective engines (R255). -/
def collSlots : Nat := 1024
/-- Group slots in use. -/
def State.collUsed (s : State) : Nat :=
  (s.mod.launches.filter (fun l => l.st != .ended)).foldl (fun n l => n + l.decl.collGroups) 0
/-- The link event n of a context (R308). -/
def linkEv (ctx n : Nat) : EvKey := { ctx := ctx, ev := 0xFFF00 + n }
/-- An ARMEV finds its link armed (R308). -/
def State.armevTaken (s : State) (ctx : Nat) (r : LaunchRec) : Bool :=
  let links := r.armev.map (fun x => x.1)
  links.any (fun n => ((s.ev (linkEv ctx n)).map (fun x => x.armed)).getD true) || links.eraseDups.length != links.length
/-- The ranges that reading a record's tables covers: entry template, GTAB and its member lists, ETAB, BTAB, hints, images,
FTAB and the descriptors at FMTBASE (R306, R307, R309 to R311, R318). -/
def State.launchRanges (s : State) (ctx : Nat) (b : List Byte) : List (Nat × Nat) :=
  if recordBad b then [] else
  let tab (va n : Nat) : List Byte := (s.table ctx va n).getD []
  let gtab := fld b 16 8
  let ng := fld b 26 2
  let heads := tab gtab (8 * ng)
  let lists := if heads.isEmpty then [] else (List.range ng).map (fun j =>
    (gtab + 4 * fld heads (8 * j) 4, 4 * fld heads (8 * j + 4) 4))
  let ia := fld b 128 8
  let ih := if ia = 0 then [] else tab ia 48
  let images := if ih.isEmpty then [] else ([Buf.w, Buf.a, Buf.c].zipIdx.filter (fun x =>
      fld ih (16 * x.2 + 8) 8 ≤ Buf.size x.1)).map (fun x => (fld ih (16 * x.2) 8, fld ih (16 * x.2 + 8) 8))
  let nf := ((List.range 16).filter (fun n => bitOf (fld b 144 2) n)).length
  let whole := [(fld b 8 8, if fld b 4 4 = 0 then 0 else 128), (gtab, 8 * ng), (fld b 36 8, 16 * fld b 32 4),
    (fld b 44 8, 32 * fld b 52 2), (fld b 56 8, 16 * fld b 64 4), (ia, if ia = 0 then 0 else 48),
    (fld b 136 8, if fld b 136 8 = 0 then 0 else 16 * nf)]
  (whole ++ lists ++ images).filter (fun x => x.2 ≠ 0)
/-- Reading those tables: malformed entries are reported, and the pages read are touched (R336, R337); so is the table of
USER routines that the record's events name.
(DEDUCED, log 26). -/
def State.readTables (s : State) (ctx : Nat) (b : List Byte) : State :=
  let named := ((s.descRows ctx (fld b 36 8) (fld b 32 4)).getD []).filter (fun d => d.combine == .user)
  let s := (s.launchRanges ctx b).foldl (fun s x => s.readRange ctx rootCore x) s
  let s := if fld b 144 2 = 0 then s else s.ctxReports ctx (s.ctxRegs ctx).fmtbase.toNat 256 rootCore
  if recordBad b then s else named.foldl (fun s d => s.readRoutine ctx d.arg rootCore) s
/-- What a record comes to: a code of R309, or a launch.
(DEDUCED, log 26). -/
def State.checkLaunchRec (s : State) (c : Ctx) (b : List Byte) : Except Trap LaunchRec :=
  match s.readLaunch c.id b with
  | none => .error .illegal
  | some r =>
    if s.launchIllegal c r then .error .illegal
    else if r.tooManyGroups then .error .launchGroups
    else if collSlots < s.collUsed + r.collGroups then .error .engine
    else if c.deviceBytes < s.stagingUsed c.id + r.staging then .error .engine
    else if s.armevTaken c.id r then .error .evtDup
    else .ok r
/-- The digest of a launch (R346). -/
def State.launchDigest (s : State) (ctx : Nat) (b : List Byte) (r : LaunchRec) : BitVec 512 :=
  let tab (va n : Nat) : List Byte := (s.table ctx va n).getD []
  let gtab := fld b 16 8
  let heads := tab gtab (8 * r.groups.length)
  let lists := (List.range r.groups.length).flatMap (fun j =>
    tab (gtab + 4 * fld heads (8 * j) 4) (4 * fld heads (8 * j + 4) 4))
  sha3 (b ++ heads ++ lists ++ tab (fld b 36 8) (16 * r.nevent) ++ tab (fld b 44 8) (32 * r.binds.length) ++
    r.fmts.flatMap (fun f => f.2) ++ r.images.flatten)

/-! ## Placement (R317, R318) -/

/-- Cores of a partition, ascending. -/
def Ctx.cores (c : Ctx) : List Nat := (sortBy (fun a b => decide (a ≤ b)) c.clusters).flatMap (fun k => (List.range 8).map (fun i => 8 * k + i))
/-- Placement reads the cluster bitmap at PARTITION, when firmware has set that register (R340). -/
def State.readPartition (s : State) (ctx : Nat) : State :=
  let base := (s.ctxRegs ctx).partition.toNat
  if base = 0 then s else
  s.updCtx ctx (fun c => { c with clusters := (List.range 4096).filter (fun k => bitOf (s.mem.get (base + k / 8)).toNat (k % 8)) })
/-- Ranks that one core takes (R317). -/
def ranksPerCore : Nat := 256
/-- Whether a hint wants a core for rank i, given the ranks already placed (R318). -/
def State.hintWants (s : State) (c : Ctx) (placed : List (Nat × Nat)) (h : List Byte) (i core : Nat) : Bool :=
  match fld h 8 1 with
  | 0 =>
    match s.leafFor c.id (fld h 9 7 * 256) with
    | some e => core / 8 == leafPa e (fld h 9 7 * 256) / vaultBytes / 8
    | none => false
  | 1 =>
    match placed.find? (fun p => p.1 = fld h 9 4) with
    | some p => core / 8 == p.2 / 8
    | none => false
  | 2 =>
    let dies := (c.cores.map (fun x => x / 8192)).eraseDups
    (dies[i % dies.length]?) == some (core / 8192)
  | _ => false
/-- The core under whose vault the page lies that rank i of the context touched first (R27, R317). -/
def State.touchCore (s : State) (c : Ctx) (i : Nat) : Option Nat :=
  s.mod.touched.findSome? (fun x =>
    if x.1 = c.id ∧ x.2.2 = i then
      (match s.leafFor c.id (x.2.1 * 65536) with
       | some e =>
         let pa := leafPa e (x.2.1 * 65536)
         if inVault pa then some (pa / vaultBytes) else none
       | none => none)
    else none)
/-- The core of rank i: the first that a hint wants and that has room, else the one its first touches name, else the next
of the partition that has room (R317). -/
def State.placeOne (s : State) (c : Ctx) (r : LaunchRec) (load : Nat → Nat) (placed : List (Nat × Nat)) (i : Nat) :
    Option Nat :=
  let cores := c.cores.filter (fun k => !r.tcb.gang || k % 4 == 0)
  let room (k : Nat) : Bool := load k + (placed.filter (fun p => p.2 = k)).length < ranksPerCore
  let hs := r.hints.filter (fun h => fld h 0 4 ≤ i && i < fld h 0 4 + fld h 4 4)
  let turn := cores.drop (i % cores.length) ++ cores.take (i % cores.length)
  let near := s.touchCore c i
  match cores.find? (fun k => room k && hs.any (fun h => s.hintWants c placed h i k)) with
  | some k => some k
  | none =>
    match cores.find? (fun k => room k && near == some k) with
    | some k => some k
    | none => turn.find? room
/-- Placing ranks from i on. -/
def State.placeFrom (s : State) (c : Ctx) (r : LaunchRec) (load : Nat → Nat) : Nat → Nat → List (Nat × Nat) →
    Option (List (Nat × Nat))
  | 0, _, placed => some placed
  | n + 1, i, placed =>
    match s.placeOne c r load placed i with
    | none => none
    | some k => State.placeFrom s c r load n (i + 1) (placed ++ [(i, k)])
/-- The cores of a launch's ranks; none when the partition has no room for them now.
(DEDUCED, log 27). -/
def State.place (s : State) (c : Ctx) (r : LaunchRec) : Option (List (Nat × Nat)) :=
  let all := s.allRanks
  s.placeFrom c r (fun k => (all.filter (fun x => x.core = k)).length) r.nrank 0 []

/-! ## Events of a launch (R238, R241) -/

/-- An event's record as its knot starts it (R241 to R247). -/
def EvState.fresh (key : EvKey) (launch : Option Nat) (d : Desc) : EvState where
  key := key
  launch := launch
  desc := d
  inst := 0
  armed := false
  need := 0
  offers := []
  clock := none
  round := none
  binding := none
  cseq := 0
  coll := none
  engine := []
  user := []
  ending := none
  peers := []
  moving := false
  armer := none
/-- Adding an event, homed where its parties lie. -/
def State.addEvent (s : State) (c : Ctx) (key : EvKey) (launch : Option Nat) (d : Desc) (cores : List Nat) : State :=
  let x := EvState.fresh key launch (s.home c d cores [])
  { s with mod := { s.mod with events := s.mod.events ++ [x] } }

end Sys2Proof.Machine
end

