-- ==== Sys2Proof/Machine/Host.lean ====
section
/-! DEFINITION. The host interface: launch queues (R299, R304, R316), the life of a launch (R308 to R316), and the mailbox
commands of R300 and R301. -/

namespace Sys2Proof.Machine

/-! ## Launch queues (R299) -/

/-- The core that firmware runs on. -/
def firmwareCore : Nat := rootCore
/-- A queue of a context. -/
def Ctx.queue (c : Ctx) (q : Nat) : Queue := c.queues[q % 4]'(Nat.mod_lt _ (by decide))
/-- Applying f to a queue. -/
def State.updQueue (s : State) (ctx q : Nat) (f : Queue → Queue) : State :=
  s.updCtx ctx (fun c => { c with queues := c.queues.set (q % 4) (f (c.queue q)) (Nat.mod_lt _ (by decide)) })
/-- Accepting records is owed while a queue holds some. -/
def State.oweAccept (s : State) (ctx q : Nat) : State :=
  match s.ctx ctx with
  | some c => if (c.queue q).head = (c.queue q).tail then s else s.oweOnce (.launchAccept ctx q)
  | none => s
/-- All four queues look for records. -/
def State.oweAccepts (s : State) (ctx : Nat) : State := (List.range 4).foldl (fun s q => s.oweAccept ctx q) s

/-! ## Completion records (R309, R313, R316) -/

/-- States of a completion record. -/
def crecCompleted : Nat := 1
def crecRejected : Nat := 2
def crecCancelled : Nat := 3
/-- The 64 bytes of a completion record. -/
def crecBytes (code : BitVec 16) (st : Nat) (lost nrank id tstart tend segs traps : Nat) : List Byte :=
  natBytes 2 code.toNat ++ natBytes 1 st ++ natBytes 1 lost ++ natBytes 4 nrank ++ natBytes 8 id ++ natBytes 8 tstart ++
    natBytes 8 tend ++ natBytes 8 segs ++ natBytes 8 traps ++ zeros 16
/-- LAUNCHID: queue and record index. -/
def launchId (q index : Nat) : Nat := q % 4 + 4 * (index % 65536)
/-- Writing a completion record where the context maps it. -/
def State.writeCrec (s : State) (ctx va : Nat) (bs : List Byte) : State :=
  match s.ctxTrap ctx va bs.length needW with
  | some _ => s.ctxReports ctx va bs.length firmwareCore
  | none => s.ctxWrite ctx va bs
/-- A launch's completion record. -/
def State.launchCrec (s : State) (l : Launch) (st : Nat) : State :=
  s.writeCrec l.ctx l.decl.crec (crecBytes 0 st l.lost.toNat l.decl.nrank (launchId l.q l.index) l.tstart s.time l.segs
    l.traps)
/-- An arming is taken back, and every offer pending on its event ends CANCELLED with it (R308, R316). -/
def State.disarm (s : State) (e : EvKey) : State :=
  (s.endEvent e (.cancel .cancelled)).updEv e (fun x => { x with armed := false, need := 0, armer := none })
/-- A link event receives CANCELLED: every pending offer ends so, and its arming with them (R309, R316). -/
def State.cancelLink (s : State) (ctx n : Nat) : State :=
  s.disarm (linkEv ctx n)
/-- The record of a launch that never ran, rejected or cancelled in its queue, with its SIGEV entries cancelled. -/
def State.crecOnly (s : State) (ctx q index : Nat) (b : List Byte) (code : BitVec 16) (st : Nat) : State :=
  let s := s.writeCrec ctx (fld b 72 8) (crecBytes code st 0 (fld b 4 4) (launchId q index) 0 s.time 0 0)
  (sigevOf b).foldl (fun s x => s.cancelLink ctx x.2) s

/-! ## Acceptance (R304) -/

/-- Launches of a context accepted and not yet complete, at most. -/
def launchCap : Nat := 16
/-- ARMEV entries of an accepted launch arm their links; one refused FULL is sent again (R242, R308). -/
def State.offerArms (s : State) (ctx id : Nat) (r : LaunchRec) : State :=
  r.armev.foldl (fun s a =>
    let (ro, s) := s.newRec launchUnit (.armev id a.2) none [{ e := linkEv ctx a.1, pay := none, bytes := [] }] .occurred
      none false
    s.sendOffer ro 0) s
/-- WAITEV offers of an accepted launch. -/
def State.offerWaits (s : State) (ctx id : Nat) (r : LaunchRec) : State :=
  (r.waitev.zipIdx).foldl (fun s x =>
    let (ro, s) := s.newRec launchUnit (.waitev id x.2) none [{ e := linkEv ctx x.1, pay := none, bytes := [] }] .occurred
      none false
    s.owe (.offer ro 0)) s
/-- Accepting a record that passed its checks (R304, R345). -/
def State.acceptLaunch (s : State) (c : Ctx) (q index : Nat) (b : List Byte) (r : LaunchRec) : State :=
  let x := s.launchDigest c.id b r
  let s := s.updCtx c.id (fun c => { c with mrl := extend c.mrl x, nlnc := c.nlnc + 1 })
  let id := s.fresh
  let l : Launch := { id := id, ctx := c.id, q := q, index := index, decl := r, st := .waiting, waits := r.waitev.length,
                      tstart := 0, segs := 0, traps := 0, lost := 0 }
  let s : State := { s with mod := { s.mod with launches := s.mod.launches ++ [l] } }
  let s := (s.bump.offerArms c.id id r).offerWaits c.id id r
  if r.waitev.isEmpty then s.oweOnce (.launchStart id) else s
/-- LAUNCH_ACCEPT: the record at HEAD is read and accepted, or rejected (R304, R309). A record that is not mapped waits
for another kick. -/
def execLaunchAccept (s : State) : Host.Outcome State Fault Refusal :=
  match s.doing with
  | some (.launchAccept ctx qn) =>
    .next (match s.ctx ctx with
      | none => s
      | some c =>
        let q := c.queue qn
        if !q.cfg || q.busy || s.mod.health.trip || q.head == q.tail || launchCap ≤ (s.liveLaunches ctx).length then s else
        let va := q.base + 256 * (q.head.toNat % 2 ^ q.lg)
        match s.table ctx va 256 with
        | none => s.ctxReports ctx va 256 firmwareCore
        | some b =>
          let s := (s.ctxTouch ctx va 256).readTables ctx b
          let s := match s.checkLaunchRec c b with
            | .error t => s.crecOnly ctx qn q.head.toNat b t.code crecRejected
            | .ok r => s.acceptLaunch c qn q.head.toNat b r
          (s.updQueue ctx qn (fun q => { q with head := q.head + 1 })).oweAccept ctx qn)
  | _ => .next s

/-! ## Start (R312, R315) -/

/-- The cores that a stage begins with: MIN cores of the partition from its binding rank's own on (R322). -/
def stageStart (c : Ctx) (b : BindRec) (home : Nat) (foot : List Byte) : Stage :=
  let rest := c.cores.filter (fun k => k ≠ home)
  { min := b.min, max := b.max, high := 0, foot := b.foot,
    cores := ((home :: rest).take b.min).map (fun k => { core := k, since := none, bytes := foot }) }
/-- The bindings of a launch are made (R166, R289, R312). -/
def State.makeBindings (s : State) (c : Ctx) (l : Launch) (placed : List (Nat × Nat)) : State :=
  l.decl.binds.foldl (fun s b =>
    let home := ((placed.find? (fun p => p.1 = b.rank)).map (fun p => p.2)).getD 0
    let foot := match b.foot with
      | some f => Memory.read (Memory.write [] 0 (l.decl.images.getD (match f.buf with | .w => 0 | .a => 1 | .c => 2) []))
          f.base f.len
      | none => []
    s.bindTo { ctx := c.id, ev := b.ev }
      { rank := { launch := l.id, rank := b.rank }, entry := b.entry, depth := b.depth, prio := l.decl.tcb.prio, queue := [],
        running := [], stage := if b.stage then some (stageStart c b home foot) else none, engine := b.engine,
        standing := true, held := false }) s
/-- The ranks of a launch, their buffers holding the images (R312). -/
def State.makeRanks (s : State) (c : Ctx) (l : Launch) (placed : List (Nat × Nat)) : State :=
  let img (k : RankSt) : RankSt := ([Buf.w, Buf.a, Buf.c].zip l.decl.images).foldl (fun k x => k.write x.1 0 x.2) k
  placed.foldl (fun s p =>
    s.placeRank (img { RankSt.empty { launch := l.id, rank := p.1 } c.id p.2 with gen := s.mod.generation })) s
/-- Homing the events of a launch (R238). -/
def State.homeEvents (s : State) (c : Ctx) (l : Launch) (placed : List (Nat × Nat)) : State :=
  (l.decl.descs.zipIdx).foldl (fun s d =>
    let ms := l.decl.row d.1.group
    let cores := (placed.filter (fun p => ms.contains p.1)).map (fun p => p.2)
    s.addEvent c { ctx := c.id, ev := l.decl.ebase + d.2 } (some l.id) d.1 cores) s
/-- Each rank's entry task becomes ready (R312). -/
def State.startTasks (s : State) (c : Ctx) (l : Launch) (placed : List (Nat × Nat)) : State :=
  placed.foldl (fun s p =>
    let (id, s) := s.newTask { launch := l.id, rank := p.1 } c.id p.2 { l.decl.tcb with rank := p.1 } .held none
    s.makeReady id) s
/-- The descriptors that a launch supplies are written to the context's table, and cached ones are invalidated (R307). -/
def State.writeFmts (s : State) (c : Ctx) (l : Launch) : State :=
  if l.decl.fmts.isEmpty then s else
  let base := (s.ctxRegs c.id).fmtbase.toNat
  (l.decl.fmts.foldl (fun s f => s.writeCrec c.id (base + 16 * f.1) f.2) s).invalidate (fun _ => false) (fun x => x == c.id)
/-- Starting a launch (R307, R312); one of no ranks only completes (R315). A launch that finds no room waits. -/
def State.startLaunch (s : State) (l : Launch) : State :=
  let s := s.readPartition l.ctx
  match s.ctx l.ctx with
  | none => s
  | some c =>
    let go (s : State) : State := s.updLaunch l.id (fun x => { x with st := .started, tstart := s.time })
    if l.decl.nrank = 0 then (go (s.writeFmts c l)).oweOnce (.launchComplete l.id)
    else
      match s.place c l.decl with
      | none => s.oweOnce (.launchStart l.id)
      | some placed =>
        let rows := (l.decl.groups.zipIdx).map (fun x =>
          ({ row := l.decl.gbase + x.2, launch := l.id, ranks := x.1 } : Group))
        let s := (s.writeFmts c l).updCtx c.id (fun c => { c with groups := c.groups ++ rows })
        let s := ((s.homeEvents c l placed).makeRanks c l placed).makeBindings c l placed
        (go s).startTasks c l placed

/-! ## Ending a launch (R313, R316) -/

/-- Events of a launch. -/
def State.eventsOf (s : State) (l : Nat) : List EvState := s.mod.events.filter (fun x => x.launch = some l)
/-- Everything that the part holds for a launch is freed: its events, group rows, ranks, jobs and buffers. -/
def State.freeLaunch (s : State) (l : Launch) : State :=
  let drop (k : RankSt) : RankSt := if k.key.launch = l.id then noRank else k
  let s := s.updCtx l.ctx (fun c => { c with groups := c.groups.filter (fun g => g.launch ≠ l.id) })
  { s with
    rank := drop s.rank
    mod := { s.mod with
      events := s.mod.events.filter (fun x => x.launch ≠ some l.id)
      ranks := s.mod.ranks.filter (fun k => k.key.launch ≠ l.id)
      others := s.mod.others.map (fun e => { e with rank := drop e.rank })
      jobs := s.mod.jobs.filter (fun j => j.rank.launch ≠ l.id)
      bufPoison := s.mod.bufPoison.filter (fun x => x.1.launch ≠ l.id)
      forwards := s.mod.forwards.filter (fun f => f.rank.launch ≠ l.id) } }
/-- Whether a launch is complete (R313). -/
def State.launchDone (s : State) (l : Launch) : Bool :=
  !s.mod.tasks.any (fun t => t.rank.launch == l.id) &&
    !(s.eventsOf l.id).any (fun x => match x.binding with
      | some b => b.standing || !b.queue.isEmpty || !b.running.isEmpty
      | none => false) &&
    !s.mod.jobs.any (fun j => j.rank.launch == l.id && j.st != .done)
/-- SIGEV offers of a completed launch. -/
def State.offerSigs (s : State) (l : Launch) : State :=
  l.decl.sigev.foldl (fun s x =>
    let (ro, s) := s.newRec launchUnit (.sigev l.id x.1) none [{ e := linkEv l.ctx x.2, pay := none, bytes := [] }] .occurred
      none false
    s.owe (.offer ro 0)) s
/-- A launch completes (R313, R315): completion record, SIGEV entries, vector.
(DEDUCED, log 26). -/
def State.finishLaunch (s : State) (l : Launch) : State :=
  let s := (s.eventsOf l.id).foldl (fun s x => s.endOffers x.key (.cancel .cancelled)) s
  let s := (s.launchCrec l crecCompleted).updLaunch l.id (fun x => { x with st := .ended })
  let s := (s.freeLaunch l).offerSigs l
  let s := if l.decl.irq then s.raiseVector l.ctx else s
  s.oweAccepts l.ctx

/-! ## Teardown (R316) -/

/-- A running segment of a launch's task is aborted at once, unless its commit has begun; its core looks for work. -/
def State.stopCore (s : State) (l core : Nat) : State :=
  let e := s.execOf core
  let mine := e.run.on && e.run.kind == .compute && ((s.task e.run.task).map (fun t => t.rank.launch == l)).getD false
  if mine && !e.run.committing then
    let c0 := s.core
    ((s.focus core).rollback.focus c0).oweOnce (.taskDispatch core)
  else s
/-- Whether a task is running a segment whose commit has begun. -/
def State.committing (s : State) (t : Task) : Bool :=
  t.st == .running && (s.execOf t.core).run.on && (s.execOf t.core).run.task == t.id && (s.execOf t.core).run.committing
/-- Records of a launch: of its ranks, of its jobs, and of its own waits. -/
def State.recsOf (s : State) (l : Nat) : List Rec :=
  s.mod.recs.filter (fun r =>
    (r.rank.map (fun k => k.launch == l)).getD false ||
      (match r.owner with
       | .engine j => ((s.job j).map (fun x => x.rank.launch == l)).getD false
       | .waitev m _ => m == l
       | .armev m _ => m == l
       | _ => false))
/-- The reports of some tasks, discarded by a teardown: a later act on one does nothing (R329). -/
def State.orphan (s : State) (ids : List Nat) : State :=
  let mark (r : Report) : Report := if r.task.any ids.contains then { r with gone := true } else r
  { s with mod := { s.mod with
      reports := s.mod.reports.map mark, waiting := s.mod.waiting.map mark, last := s.mod.last.map mark,
      hosted := s.mod.hosted.map mark } }
/-- The tasks of a launch stop and are discarded, but for those that are committing. -/
def State.stopTasks (s : State) (l : Nat) : State :=
  let cores := ((s.mod.tasks.filter (fun t => t.rank.launch = l)).map (fun t => t.core)).eraseDups
  let s := cores.foldl (fun s k => s.stopCore l k) s
  let gone (t : Task) : Bool := t.rank.launch == l && !s.committing t
  let s := s.orphan ((s.mod.tasks.filter gone).map (fun t => t.id))
  { s with mod := { s.mod with tasks := s.mod.tasks.filter (fun t => !gone t) } }
/-- Offers that the launch has pending are taken back, but for records that are CLAIMED. -/
def State.dropRecsOf (s : State) (l : Nat) : State :=
  (s.recsOf l).foldl (fun s r => match r.state with
    | .claimed _ _ => s
    | _ => s.withdrawAll r.ro) s
/-- REQ of an activation message. -/
def Act.req (a : Act) : Nat := fld a.msg 0 8
/-- Chunks of a request that its detokeniser binding has accepted and not yet taken off. -/
def State.chunksOf (s : State) (ctx req : Nat) : List (EvKey × Act) :=
  s.mod.events.flatMap (fun x => match x.binding with
    | some b => if b.engine && x.key.ctx == ctx then ((b.queue ++ b.running).filter (fun a => a.req == req)).map (fun a => (x.key, a))
                else []
    | none => [])
/-- A notice on its way about one of some requests (R293). -/
def noticeOn (ids : List Nat) : Owed → Bool
  | .openNotice n => ids.contains n.id
  | .endNotice id => ids.contains id
  | .dropNotice id => ids.contains id
  | _ => false
/-- Requests are freed at both sides, with the notices about them that are on their way. -/
def State.freeRequests (s : State) (ids : List Nat) : State :=
  { s with
    pending := s.pending.filter (fun o => !noticeOn ids o)
    mod := { s.mod with
      texts := s.mod.texts.filter (fun x => !ids.contains x.id)
      replies := s.mod.replies.filter (fun r => !ids.contains r.id) } }
/-- Text requests that a launch's tokeniser binding serves are freed without a reply; so are those that it abandoned, whose
chunks lie on its own bindings alone (R292, R316). -/
def State.freeTexts (s : State) (l : Nat) : State :=
  let on (e : EvKey) : Bool := (s.ev e).any (fun x => x.launch == some l)
  let mine (x : TextReq) : Bool := on { ctx := x.ctx, ev := x.bind }
  let ended (r : Reply) : Bool := r.dropped && (s.chunksOf r.ctx r.req).all (fun x => on x.1)
  s.freeRequests (((s.mod.texts.filter mine).map (fun x => x.id)) ++ ((s.mod.replies.filter ended).map (fun r => r.id)))
/-- The collectives of a launch abort, their destinations unspecified (R257). -/
def State.stopColls (s : State) (l : Nat) : State :=
  (s.eventsOf l).foldl (fun s x => match x.coll with
    | some c => (s.spoilDst (s.collJobs c)).updEv x.key (fun y => { y with coll := none, cseq := (y.cseq + 1) % 2 ^ 32 })
    | none => s) s
/-- Armings that the launch made on events that are not its own: its link events (R253). -/
def State.armings (s : State) (l : Nat) : List EvState :=
  s.mod.events.filter (fun x => x.armed && x.armer == some l && x.launch != some l)
/-- Steps 1 to 3 of a teardown, as far as they can go now: a copy stops at its next row, everything else of its jobs at once. -/
def State.stopLaunch (s : State) (l : Nat) : State :=
  let s := ((s.stopTasks l).freeTexts l).stopColls l
  let s : State := { s with mod := { s.mod with
    jobs := s.mod.jobs.map (fun j => if j.rank.launch ≠ l then j else
      if j.kind = .coll then { j with st := .done } else j.stopAs .done) } }
  let s := s.dropRecsOf l
  let s := (s.armings l).foldl (fun s x => s.disarm x.key) s
  (s.eventsOf l).foldl (fun s x => s.endEvent x.key (.cancel .cancelled)) s
/-- A launch that still has a committing segment, a CLAIMED record, a copy inside a row or a round under way. -/
def State.stillEnding (s : State) (l : Nat) : Bool :=
  s.mod.tasks.any (fun t => t.rank.launch == l) || !(s.recsOf l).isEmpty ||
    s.mod.jobs.any (fun j => j.rank.launch == l && j.st != .done) || (s.eventsOf l).any (fun x => x.round.isSome)
/-- A queue under RESET is done once no launch of it is being cancelled: records it still holds are cancelled, HEAD :=
TAIL and BUSY := 0 (R316 step 5). -/
def State.finishReset (s : State) (ctx qn : Nat) : State :=
  match s.ctx ctx with
  | none => s
  | some c =>
    let q := c.queue qn
    if !q.busy || s.mod.launches.any (fun l => l.ctx == ctx && l.q == qn && l.st != .ended) then s
    else
      let s := (List.range (q.tail - q.head).toNat).foldl (fun s i =>
        let idx := (q.head + BitVec.ofNat 16 i).toNat
        match s.table ctx (q.base + 256 * (idx % 2 ^ q.lg)) 256 with
        | some b => s.crecOnly ctx qn idx b 0 crecCancelled
        | none => s) s
      s.updQueue ctx qn (fun q => { q with head := q.tail, busy := false })
/-- Step 4 and the end of a cancelled launch. -/
def State.finishCancel (s : State) (l : Launch) : State :=
  let s := s.stopLaunch l.id
  if s.stillEnding l.id then s.oweOnce (.launchComplete l.id)
  else
    let s := (s.launchCrec l crecCancelled).updLaunch l.id (fun x => { x with st := .ended })
    let s := s.freeLaunch l
    let s := l.decl.sigev.foldl (fun s x => s.cancelLink l.ctx x.2) s
    (s.finishReset l.ctx l.q).oweAccepts l.ctx
/-- A launch is cancelled. -/
def State.cancelLaunch (s : State) (l : Launch) : State :=
  (s.updLaunch l.id (fun x => { x with st := .cancelling })).finishCancel { l with st := .cancelling }
/-- Writing RESET to a queue (R316). -/
def State.resetQueue (s : State) (ctx qn : Nat) : State :=
  let s := s.updQueue ctx qn (fun q => { q with busy := true })
  let ls := s.mod.launches.filter (fun l => l.ctx == ctx && l.q == qn && l.st != .ended)
  (ls.foldl (fun s l => s.cancelLaunch l) s).finishReset ctx qn
/-- Every queue of a context is torn down (R329, R364). -/
def State.killContext (s : State) (ctx : Nat) : State := (List.range 4).foldl (fun s q => s.resetQueue ctx q) s
/-- A write that a queue refuses sets ERR, also in the page of a context that is not allocated (R299). -/
def State.refuseKick (s : State) (ctx qn : Nat) : State :=
  match s.ctx ctx with
  | some _ => s.updQueue ctx qn (fun q => { q with err := true })
  | none =>
    if 64 ≤ ctx ∨ s.mod.strays.contains (ctx, qn % 4) then s
    else { s with mod := { s.mod with strays := s.mod.strays ++ [(ctx, qn % 4)] } }
/-- RESET (R316). -/
def execReset (s : State) : Host.Outcome State Fault Refusal :=
  match s.doing with
  | some (.reset ctx q) =>
    .next (match s.ctx ctx with
      | none => s
      | some c =>
        if !(c.queue q).cfg || (c.queue q).busy || s.mod.health.trip then s.refuseKick ctx q else s.resetQueue ctx q)
  | _ => .next s
/-- A write of QCTLn (R299); one that sets RESET ignores TAIL and nothing else. A context that is not allocated has no queue
configured, and after a trip every write is refused (R364; DEDUCED, log 33). -/
def State.writeQctl (s : State) (ctx qn : Nat) (v : Word) : State :=
  match s.ctx ctx with
  | none => s.refuseKick ctx qn
  | some c =>
    let q := c.queue qn
    let tail : BitVec 16 := v.setWidth 16
    if v.extractLsb' 48 13 != 0 || v.extractLsb' 16 16 != 0 || q.busy || !q.cfg || s.mod.health.trip then s.refuseKick ctx qn
    else if v.getLsbD 63 then
      (s.updQueue ctx qn (fun q => { q with err := q.err && !v.getLsbD 61 })).resetQueue ctx qn
    else if 2 ^ q.lg < (tail - q.head).toNat then s.refuseKick ctx qn
    else
      (s.updQueue ctx qn (fun q => { q with tail := tail, err := q.err && !v.getLsbD 61 })).oweAccept ctx qn
/-- Whether launch a starts before launch b: the higher queue priority, then the earlier acceptance (R304). -/
def State.startsBefore (s : State) (a b : Launch) : Bool :=
  let prio (l : Launch) : Nat := ((s.ctx l.ctx).map (fun c => (c.queue l.q).prio)).getD 0
  prio b < prio a || (prio a == prio b && a.id < b.id)
/-- The first launch that is ready to start. -/
def State.firstReady (s : State) : List Launch → Option Launch
  | [] => none
  | l :: ls =>
    match s.firstReady ls with
    | none => if l.st == .waiting && l.waits == 0 then some l else none
    | some m => if l.st == .waiting && l.waits == 0 && s.startsBefore l m then some l else some m
/-- LAUNCH_START: among the launches ready to start the first starts; one whose WAITEV was cancelled is cancelled (R304,
R312, R316). -/
def execLaunchStart (s : State) : Host.Outcome State Fault Refusal :=
  match s.doing with
  | some (.launchStart id) =>
    .next (match s.launch id with
      | none => s
      | some l =>
        match l.st with
        | .cancelling => s.finishCancel l
        | .waiting =>
          if s.mod.health.trip then s else
          match s.firstReady s.mod.launches with
          | none => s
          | some m => if m.id = id then s.startLaunch l else (s.startLaunch m).oweOnce (.launchStart id)
        | _ => s)
  | _ => .next s
/-- LAUNCH_COMPLETE (R313, R315, R316). -/
def execLaunchComplete (s : State) : Host.Outcome State Fault Refusal :=
  match s.doing with
  | some (.launchComplete id) =>
    .next (match s.launch id with
      | none => s
      | some l =>
        match l.st with
        | .started => if s.launchDone l then s.finishLaunch l else s
        | .cancelling => s.finishCancel l
        | _ => s)
  | _ => .next s

/-! ## The mailbox (R300, R301) -/

/-- RESP status codes. -/
def mailOk : Nat := 0
def mailBadCmd : Nat := 1
def mailBadArg : Nat := 2
def mailNoResource : Nat := 3
def mailDenied : Nat := 4
/-- Changing the mailbox. -/
def State.updMail (s : State) (f : Mailbox → Mailbox) : State := { s with mod := { s.mod with mailbox := f s.mod.mailbox } }
/-- Firmware's answer: RESP, the results, and vector 64. -/
def State.reply (s : State) (tag status : Nat) (res : List Byte) : State :=
  (s.updMail (fun m => { m with busy := false, status := status, tag := tag, result := res })).raiseVector 64
/-- The mailbox serves one command at a time: one that comes while another runs is ignored (R300). -/
def State.mailServe (s : State) (tag : Nat) (k : State → State) : State :=
  if s.mod.mailbox.busy && s.mod.mailbox.tag != tag then s
  else k (s.updMail (fun m => { m with busy := true, tag := tag }))
/-- A mailbox command, whose doorbell sets IPEND bit 1 (R340): firmware must run (R344), and after a trip only CTX_DESTROY
is accepted (R364).
(DEDUCED, log 28). -/
def State.command (s : State) (tag : Nat) (always : Bool) (k : State → State) : State :=
  s.mailServe tag fun s =>
  let s := s.raiseIpend 1
  if s.mod.boot.state ≠ 1 then s.reply tag mailBadCmd []
  else if s.mod.health.trip && !always then s.reply tag mailDenied []
  else k s
/-- The fields of a context descriptor (R302). -/
structure CtxDesc where
  ptbase : Nat
  fmtbase : Nat
  nclus : Nat
  dies : Nat
  budget : Nat
  mctbase : Nat
  routbase : Nat
  uejob : Nat
  dirtybase : Nat
  deriving DecidableEq, Repr
/-- Reading a descriptor; none is BADARG. -/
def ctxDesc (b : List Byte) : Option CtxDesc :=
  let d : CtxDesc :=
    { ptbase := fld b 0 8, fmtbase := fld b 8 8, nclus := fld b 16 2, dies := fld b 18 1, budget := fld b 20 2,
      mctbase := fld b 24 8, routbase := fld b 32 8, uejob := fld b 40 4, dirtybase := fld b 48 8 }
  if b.length ≠ 64 ∨ d.ptbase % 2 ^ 15 ≠ 0 ∨ 2 ^ 48 ≤ d.ptbase ∨ d.fmtbase % 256 ≠ 0 ∨ 2 ^ 52 ≤ d.fmtbase ∨ d.nclus = 0 ∨
      4096 < d.nclus ∨ 16 ≤ d.dies ∨ fld b 19 1 ≠ 0 ∨ 5000 < d.budget ∨ fld b 22 2 ≠ 0 ∨ d.mctbase % 128 ≠ 0 ∨
      2 ^ 52 ≤ d.mctbase ∨ 2 ^ 52 ≤ d.routbase ∨ fld b 44 4 ≠ 0 ∨ 2 ^ 48 ≤ d.dirtybase ∨ fld b 56 8 ≠ 0 then none
  else some d
/-- Clusters of the allowed dies that no context holds, ascending. -/
def State.freeClusters (s : State) (dies : Nat) : List Nat :=
  let used := s.mod.ctxs.flatMap (fun c => c.clusters)
  (List.range 4096).filter (fun k => bitOf dies (k / 1024) && !used.contains k)
/-- Clusters that a twig switch has among some. -/
def twigCount (free : List Nat) (t : Nat) : Nat := (free.filter (fun k => Config.twig k = t)).length
/-- The twig switch with the most free clusters; of two, the one whose first cluster is lower. -/
def fullestTwig (free : List Nat) : List Nat → Option Nat
  | [] => none
  | k :: ks =>
    match fullestTwig free ks with
    | none => some (Config.twig k)
    | some t => if twigCount free t ≤ twigCount free (Config.twig k) then some (Config.twig k) else some t
/-- n clusters of those that are free, under as few twig switches as can be: the switches with the most free clusters give
theirs first, each in ascending order (R302).
(DESIGN CHOICE, log 27). -/
def fewTwigs : Nat → List Nat → Nat → List Nat
  | 0, _, _ => []
  | fuel + 1, free, n =>
    if n = 0 then [] else
    match fullestTwig free free with
    | none => []
    | some t =>
      let now := (free.filter (fun k => Config.twig k = t)).take n
      now ++ fewTwigs fuel (free.filter (fun k => Config.twig k ≠ t)) (n - now.length)
/-- The lowest context number that is free (R7). -/
def State.freeCtx (s : State) : Option Nat := (List.range 64).find? (fun n => (s.ctx n).isNone)
/-- A queue at reset (R299). -/
def Queue.reset : Queue where
  cfg := false
  base := 0
  lg := 1
  prio := 0
  head := 0
  tail := 0
  busy := false
  err := false
/-- The descriptor of a link event (R308). -/
def linkDesc : Desc where
  kind := .counted
  combine := .none
  cls := .none
  elem := .raw
  bytes := 0
  group := 0
  arg := 0
  deadline := 0
  knot := 128
  scope := .mod
/-- A new context of a number, with its selected registers and its 256 link events (R302, R308, R345); its queues show the
ERR that their registers hold (R299; DEDUCED, log 28). -/
def State.createCtx (s : State) (id : Nat) (b : List Byte) (d : CtxDesc) (clusters : List Nat) : State :=
  let c : Ctx :=
    { id := id, desc := b, mctbase := BitVec.ofNat 64 d.mctbase, routbase := BitVec.ofNat 64 d.routbase, uejob := d.uejob,
      dirtybase := BitVec.ofNat 64 d.dirtybase, clusters := clusters, groups := [], key := none, mrv := 0, mrl := 0,
      nvoc := 0, nlnc := 0, vocab := Vector.replicate 4 [], text := none,
      queues := Vector.ofFn (fun i : Fin 4 => { Queue.reset with err := s.mod.strays.contains (id, i.val) }),
      quiesced := false }
  let s : State := { s with mod := { s.mod with ctxs := s.mod.ctxs ++ [c], strays := s.mod.strays.filter (fun x => x.1 ≠ id) } }
  let s := s.updCtxRegs id (fun r => { r with ptbase := BitVec.ofNat 64 d.ptbase, fmtbase := BitVec.ofNat 64 d.fmtbase,
                                              budget := if d.budget = 0 then 100 else d.budget })
  (List.range 256).foldl (fun s n => s.addEvent c (linkEv id n) none linkDesc []) s
/-- Allocating a context and its partition: a status, and the number on success. -/
def State.newCtx (s : State) (b : List Byte) : Nat × Nat × State :=
  match ctxDesc b, s.freeCtx with
  | none, _ => (mailBadArg, 0, s)
  | _, none => (mailNoResource, 0, s)
  | some d, some id =>
    let free := s.freeClusters d.dies
    if free.length < d.nclus then (mailNoResource, 0, s)
    else (mailOk, id, s.createCtx id b d (fewTwigs d.nclus free d.nclus))
/-- CTX_CREATE (R301, R302). -/
def execCtxCreate (s : State) : Host.Outcome State Fault Refusal :=
  match s.doing with
  | some (.ctxCreate tag b) =>
    .next (s.command tag false (fun s =>
      match s.newCtx b with
      | (st, id, s) => s.reply tag st (if st = mailOk then natBytes 8 id else [])))
  | _ => .next s
/-- A context was quiesced and saved, and has not run since: what it held lies in its save area (R358). -/
def State.movedOut (s : State) (c : Ctx) : Bool := c.quiesced && s.mod.saved.any (fun x => x.ctx.id == c.id)
/-- Every queue of a context is empty and idle; the launches of a context that was saved continue from its area. -/
def State.ctxIdle (s : State) (c : Ctx) : Bool :=
  (List.range 4).all (fun q => (c.queue q).head == (c.queue q).tail && !(c.queue q).busy) &&
    ((s.liveLaunches c.id).isEmpty || s.movedOut c)
/-- Freeing a context: its knot records, its caches and its partition. -/
def State.freeCtxOf (s : State) (id : Nat) : State :=
  let s := (s.invalidateCtx id).freeRequests ((s.mod.texts.filter (fun x => x.ctx = id)).map (fun x => x.id))
  let drop (k : RankSt) : RankSt := if k.ctx = id && k.key.launch != 0 then noRank else k
  { s with rank := drop s.rank, mod := { s.mod with
      others := s.mod.others.map (fun e => { e with rank := drop e.rank })
      ranks := s.mod.ranks.filter (fun k => k.ctx ≠ id)
      tasks := s.mod.tasks.filter (fun t => t.ctx ≠ id)
      jobs := s.mod.jobs.filter (fun j => j.ctx ≠ id)
      ctxs := s.mod.ctxs.filter (fun c => c.id ≠ id)
      events := s.mod.events.filter (fun x => x.key.ctx ≠ id)
      recs := s.mod.recs.filter (fun r => !r.alts.any (fun a => a.e.ctx == id))
      texts := s.mod.texts.filter (fun x => x.ctx ≠ id)
      replies := s.mod.replies.filter (fun x => x.ctx ≠ id)
      strays := s.mod.strays ++ ((List.range 4).filter (fun q => (s.ctx id).any (fun c => (c.queue q).err))).map (fun q => (id, q))
      hosted := s.mod.hosted.filter (fun r => bits r.src.toNat 9 4 ≠ id)
      scheds := s.mod.scheds.map (fun c => { c with preempted := c.preempted.filter (· ≠ id), asked := c.asked.filter (· ≠ id) })
      launches := s.mod.launches.filter (fun l => l.ctx ≠ id) } }
/-- CTX_DESTROY (R301). -/
def execCtxDestroy (s : State) : Host.Outcome State Fault Refusal :=
  match s.doing with
  | some (.ctxDestroy tag id) =>
    .next (s.command tag true (fun s =>
      match s.ctx id with
      | none => s.reply tag mailBadArg []
      | some c => if s.ctxIdle c then (s.freeCtxOf id).reply tag mailOk [] else s.reply tag mailDenied []))
  | _ => .next s
/-- QUEUE_CFG (R301). -/
def execQueueCfg (s : State) : Host.Outcome State Fault Refusal :=
  match s.doing with
  | some (.queueCfg tag id q base lg prio) =>
    .next (s.command tag false (fun s =>
      match s.ctx id with
      | none => s.reply tag mailBadArg []
      | some c =>
        let x := c.queue q
        if 4 ≤ q ∨ 2 ^ 52 ≤ base ∨ lg = 0 ∨ 12 < lg ∨ 4 ≤ prio then s.reply tag mailBadArg []
        else if x.head != x.tail || x.busy || (s.liveLaunches id).any (fun l => l.q == q) then s.reply tag mailDenied []
        else (s.updQueue id q (fun y => { y with cfg := true, base := base, lg := lg, prio := prio, head := 0, tail := 0 })).reply
          tag mailOk []))
  | _ => .next s
/-- The bindings of a launch are removed; messages not yet accepted are cancelled (R314). -/
def State.endBindings (s : State) (l : Launch) : State :=
  let s := (s.eventsOf l.id).foldl (fun s x => match x.binding with
    | some _ => (s.updEv x.key (fun y => { y with binding := y.binding.map (fun b => { b with standing := false }) })).endEvent
        x.key (.cancel .cancelled)
    | none => s) s
  s.oweOnce (.launchComplete l.id)
/-- LAUNCH_END (R301, R314). -/
def execLaunchEnd (s : State) : Host.Outcome State Fault Refusal :=
  match s.doing with
  | some (.launchEnd tag id lid) =>
    .next (s.command tag false (fun s =>
      match (s.liveLaunches id).find? (fun l => l.st == .started && launchId l.q l.index == lid) with
      | none => s.reply tag mailBadArg []
      | some l => (s.endBindings l).reply tag mailOk []))
  | _ => .next s
/-- A handler binding of class inline, 64 bytes, or an engine binding (R290). -/
def State.textBinding (s : State) (ctx ev : Nat) (engine : Bool) : Bool :=
  match s.ev { ctx := ctx, ev := ev } with
  | none => false
  | some x => x.desc.kind == .binding && x.desc.cls == .inline && x.desc.bytes == 64 &&
      (x.binding.map (fun b => b.engine == engine && b.standing)).getD false
/-- Two events belong to one launch. -/
def State.sameLaunch (s : State) (ctx e f : Nat) : Bool :=
  match s.ev { ctx := ctx, ev := e }, s.ev { ctx := ctx, ev := f } with
  | some x, some y => x.launch == y.launch
  | _, _ => false
/-- The name that detaches a text path (R301). -/
def noName : Nat := 0xFFFFF
/-- TEXT_ATTACH (R290, R301). -/
def execTextAttach (s : State) : Host.Outcome State Fault Refusal :=
  match s.doing with
  | some (.textAttach tag id h tok detok) =>
    .next (s.command tag false (fun s =>
      match s.ctx id with
      | none => s.reply tag mailBadArg []
      | some _ =>
        if tok = noName ∧ detok = noName then (s.updCtx id (fun c => { c with text := none })).reply tag mailOk []
        else if 4 ≤ h ∨ !s.textBinding id tok false ∨ !s.textBinding id detok true ∨ !s.sameLaunch id tok detok then s.reply tag mailBadArg []
        else (s.updCtx id (fun c => { c with text := some { vh := h, tok := tok, detok := detok } })).reply tag mailOk []))
  | _ => .next s
/-! ## The BARs (R298, R300) -/

/-- Argument i of a command: the 8-byte word at 0x040 + 8i (R357). -/
def Mailbox.arg (m : Mailbox) (i : Nat) : Nat := leNat (m.words.read (0x040 + 8 * i) 8)
/-- CMD bits 63:16. -/
def Mailbox.cmdTag (m : Mailbox) : Nat := leNat (m.words.read 2 6)
/-- The command that CMD and the arguments name (R301, R344, R357); none for every other code.
(DEDUCED, log 28: R357 places the arguments of its commands in 8-byte words from 0x040, a descriptor lying at 0x040, and
the model reads R301's in the same way). -/
def Mailbox.command (m : Mailbox) : Option Owed :=
  let a := m.arg
  match leNat (m.words.read 0 2) with
  | 0x01 => some (.ctxCreate m.cmdTag (m.words.read 0x040 64))
  | 0x02 => some (.ctxDestroy m.cmdTag (a 0))
  | 0x03 => some (.queueCfg m.cmdTag (a 0) (a 1) (a 2) (a 3) (a 4))
  | 0x04 => some (.launchEnd m.cmdTag (a 0) (a 1))
  | 0x05 => some (.textAttach m.cmdTag (a 0) (a 1) (a 2) (a 3))
  | 0x06 => some (.vocabLoad m.cmdTag (a 0) (a 1) (a 2) (a 3))
  | 0x0F => some (.recover m.cmdTag (a 0) (a 1))
  | 0x10 => some (.trackStart m.cmdTag (a 0))
  | 0x11 => some (.harvest m.cmdTag (a 0) (a 1))
  | 0x12 => some (.quiesce m.cmdTag (a 0))
  | 0x13 => some (.save m.cmdTag (a 0) (a 1))
  | 0x14 => some (.load m.cmdTag (a 0) (m.words.read 0x048 64))
  | 0x15 => some (.resume m.cmdTag (a 0))
  | 0x16 => some (.ckpt m.cmdTag (a 0) (a 1) (a 2 % 2 == 1))
  | 0x17 => some (.ckptLoad m.cmdTag (a 0) (a 1))
  | _ => none
/-- The doorbell: ignored while a command runs; else the command that CMD names runs, and a code that names none is
answered BADCMD (R300, R301). -/
def State.ring (s : State) : State :=
  let m := s.mod.mailbox
  if m.busy then s else
  match m.command with
  | some o => (s.updMail (fun x => { x with busy := true, tag := m.cmdTag })).owe o
  | none => (s.raiseIpend 1).reply m.cmdTag mailBadCmd []
/-- Offsets of BAR0. -/
def mailBase : Nat := 0x100000
def healthBase : Nat := 0x200000
def msixBase : Nat := 0x300000
def pbaBase : Nat := 0x308000
/-- Bytes of the MSI-X table: 16 for each of the 66 vectors. -/
def msixBytes : Nat := 1056
/-- An 8-byte write at an offset of a BAR; a range that is reserved, or read-only, ignores it (R298). -/
def State.barWrite (s : State) (bar off : Nat) (v : Word) : State :=
  if bar ≠ 0 then s
  else if off < 0x40000 then
    (if off % 4096 < 32 then s.writeQctl (off / 4096) (off % 4096 / 8) v else s)
  else if mailBase ≤ off ∧ off < mailBase + 0x1000 then
    let at_ := off - mailBase
    if at_ = 0xFF8 then (if v.getLsbD 0 then s.ring else s)
    else if at_ = 0x040 then
      ({ s with mod := { s.mod with boot := { s.mod.boot with word40 := v } } } : State).updMail (fun m =>
        { m with words := m.words.write at_ (natBytes 8 v.toNat) })
    else if at_ = 0 ∨ (0x040 ≤ at_ ∧ at_ < 0x800) then
      s.updMail (fun m => { m with words := m.words.write at_ (natBytes 8 v.toNat) })
    else s
  else if msixBase ≤ off ∧ off < msixBase + msixBytes then
    { s with mod := { s.mod with msixTable := s.mod.msixTable.write (off - msixBase) (natBytes 8 v.toNat) } }
  else s
/-- KICK: a write of QCTLn by its context and queue, or any other write that the host makes in a BAR (R298, R299). -/
def execKick (s : State) : Host.Outcome State Fault Refusal :=
  match s.doing with
  | some (.kick ctx qn v) => .next (s.writeQctl ctx qn v)
  | some (.barWrite bar word v) => .next (s.barWrite bar (8 * word) v)
  | _ => .next s
/-- The word of QCTLn (R299). -/
def Queue.word (q : Queue) : Nat :=
  q.tail.toNat + q.head.toNat * 2 ^ 32 + q.err.toNat * 2 ^ 61 + q.busy.toNat * 2 ^ 62
/-- What QCTLn of a context's page reads as (R299). -/
def State.qctl (s : State) (ctx qn : Nat) : Nat :=
  match s.ctx ctx with
  | some c => (c.queue qn).word
  | none => (s.mod.strays.contains (ctx, qn)).toNat * 2 ^ 61
/-- The mailbox's 4 KiB page: CMD, arguments, RESP, results and status (R300, R344). -/
def State.mailPage (s : State) : List Byte :=
  let m := s.mod.mailbox
  m.words.read 0 0x800 ++ natBytes 8 (m.status + m.tag * 2 ^ 16) ++ (padTo 0x7E8 m.result).take 0x7E8 ++
    natBytes 8 (m.busy.toNat + s.mod.boot.state.toNat * 16) ++ zeros 8
/-- The byte at an offset of BAR0; reserved ranges read as zero (R298). -/
def State.barByte (s : State) (off : Nat) : Byte :=
  if off < 0x40000 then
    (if off % 4096 < 32 then
      (natBytes 8 (s.qctl (off / 4096) (off % 4096 / 8))).getD (off % 8) 0
     else 0)
  else if mailBase ≤ off ∧ off < mailBase + 0x1000 then s.mailPage.getD (off - mailBase) 0
  else if healthBase ≤ off ∧ off < healthBase + 0x10000 then s.mod.health.window.get (off - healthBase)
  else if msixBase ≤ off ∧ off < msixBase + msixBytes then s.mod.msixTable.get (off - msixBase)
  else if pbaBase ≤ off ∧ off < pbaBase + 16 then (natBytes 16 s.mod.msix.toNat).getD (off - pbaBase) 0
  else 0
/-- What the host reads in a BAR. The CXL registers of BAR2 are a published standard's, whose contents the spec does not
give: they read as free bytes (DESIGN CHOICE, log 28). -/
def State.barRead (s : State) (bar off n : Nat) : List Byte :=
  if bar = 2 ∧ off + n ≤ 65536 then s.freeBytes off n
  else if bar = 0 then (List.range n).map (fun i => s.barByte (off + i))
  else zeros n
/-- VOCAB_LOAD: firmware runs a VOCAB job (R218, R301). -/
def execVocabLoad (s : State) : Host.Outcome State Fault Refusal :=
  match s.doing with
  | some (.vocabLoad tag id h va n) =>
    .next (s.command tag false (fun s =>
      match s.ctx id with
      | none => s.reply tag mailBadArg []
      | some c =>
        if 4 ≤ h ∨ n < 64 ∨ 2 ^ 31 < n then s.reply tag mailBadArg []
        else match s.table id va n with
          | none => (s.ctxReports id va n firmwareCore).reply tag mailBadArg []
          | some bs =>
            let res := vocabRes bs c.key
            let s := s.ctxTouch id va n
            (if res = 0 then s.loadVocab id h bs none else s).reply tag mailOk (natBytes 8 res)))
  | _ => .next s

end Sys2Proof.Machine
end

