-- ==== Sys2Proof/Machine/TextPath.lean ====
section
/-! DEFINITION. The streamed text path: frames, chunks, notices and replies (R76, R77, R290, R292, R293, R295), and the
messages of the scale-out ports (R349). -/

namespace Sys2Proof.Machine

/-! ## Frames (R76) -/

/-- The fields of a text frame. -/
structure Frame where
  ctx : Nat
  vh : Nat
  reply : Bool
  last : Bool
  req : Nat
  seq : Nat
  maxtok : Nat
  raddr : List Byte
  payload : List Byte
  /-- VERSION is not 1, a reserved field is nonzero, or LEN differs from the bytes that follow. -/
  bad : Bool
  deriving DecidableEq, Repr
/-- Reading a frame. -/
def frameOf (b : List Byte) : Frame where
  ctx := fld b 2 1 % 64
  vh := fld b 3 1 % 4
  reply := bitOf (fld b 4 4) 0
  last := bitOf (fld b 4 4) 1
  req := fld b 8 8
  seq := fld b 16 4
  maxtok := fld b 20 4
  raddr := padTo 16 (slice b 32 16)
  payload := b.drop 48
  bad := fld b 0 2 != 1 || 64 ≤ fld b 2 1 || 4 ≤ fld b 3 1 || 4 ≤ fld b 4 4 || fld b 28 4 != 0 || 65536 < fld b 24 4 ||
    b.length != 48 + fld b 24 4
/-- The 48-byte header of a reply frame and its payload (R76, R295). -/
def replyFrame (r : Reply) (seq : Nat) (last : Bool) (payload : List Byte) : List Byte :=
  natBytes 2 1 ++ natBytes 1 r.ctx ++ natBytes 1 r.vh ++ natBytes 4 (1 + 2 * b2n last) ++ natBytes 8 r.req ++
    natBytes 4 seq ++ natBytes 4 0 ++ natBytes 4 payload.length ++ natBytes 4 0 ++ padTo 16 r.raddr ++ payload

/-! ## The tokeniser (R292, R293) -/

/-- A request at its tokeniser. -/
def State.text (s : State) (ctx req : Nat) : Option TextReq := s.mod.texts.find? (fun x => x.ctx == ctx && x.req == req)
/-- A request by its own number. -/
def State.textAt (s : State) (id : Nat) : Option TextReq := s.mod.texts.find? (fun x => x.id == id)
/-- Replacing a request. -/
def State.setText (s : State) (x : TextReq) : State :=
  { s with mod := { s.mod with texts := updWhere (fun y => y.id == x.id) (fun _ => x) s.mod.texts } }
/-- The frame that would make the held bytes contiguous has not arrived (R293). -/
def TextReq.missing (x : TextReq) : Bool := !x.frames.isEmpty && !x.frames.any (fun g => g.1 == x.next)
/-- The text is over: its frame with LAST has been consumed. -/
def TextReq.ended (x : TextReq) : Bool := (x.last.map (fun l => decide (l < x.next))).getD false
/-- Consuming the next frames while they are contiguous, and forming the tokens whose pieces are known to end. -/
def TextReq.consume (img : List Byte) : Nat → TextReq → TextReq
  | 0, x => x
  | n + 1, x =>
    match x.frames.find? (fun f => f.1 = x.next) with
    | none => x
    | some f =>
      let ps := pieces img (x.bytes ++ f.2.2)
      let done := if f.2.1 then ps else ps.dropLast
      let rest := if f.2.1 then [] else ps.getLastD []
      TextReq.consume img n { x with
        frames := x.frames.filter (fun g => g.1 ≠ f.1), next := x.next + 1, bytes := rest, eaten := x.eaten + f.2.2.length,
        tokens := x.tokens ++ done.flatMap (bpe img) }
/-- The 64 bytes of a token chunk (R77). -/
def chunkBytes (req seq : Nat) (last : Bool) (ts : List Nat) : List Byte :=
  padTo 64 (natBytes 8 req ++ natBytes 4 seq ++ natBytes 1 ts.length ++ natBytes 1 (b2n last) ++ natBytes 2 0 ++
    ts.flatMap (fun t => natBytes 3 (t % 2 ^ 18)))
/-- Offering a chunk on the tokeniser binding. -/
def State.offerChunk (s : State) (x : TextReq) (last : Bool) : State :=
  let alt : Alt := { e := { ctx := x.ctx, ev := x.bind }, pay := none,
                     bytes := chunkBytes x.req x.chunk last (x.tokens.take 16) }
  let (ro, s) := s.newRec (tokUnit x.tok) (.text x.id) none [alt] .occurred none false
  (s.setText { x with offered := some ro }).owe (.offer ro 0)
/-- A request goes on as far as it can: it reads frames unless it is stalled on an offer, and offers its next chunk. The
limit of a missing frame runs in either case. -/
def State.pumpText (s : State) (id : Nat) : State :=
  match s.textAt id with
  | none => s
  | some x =>
    if x.offered.isSome then (if x.missing then s.oweOnce (.missingFrameTimeout id) else s) else
    let x := if x.tokens.length ≤ 16 then x.consume (s.vocabIn x.ctx x.vh) (x.frames.length + 1) else x
    let s := s.setText x
    if 16 < x.tokens.length then s.offerChunk x false
    else if x.ended then
      if !x.tokens.isEmpty then s.offerChunk x true
      else if x.chunk = 0 then s.owe (.endNotice id)
      else s
    else if x.missing then s.oweOnce (.missingFrameTimeout id)
    else s
/-- Frames that a tokeniser holds out of order for one request (R292). -/
def heldCap : Nat := 64
/-- A frame that the request keeps out: beyond LAST, or a second LAST (R293). -/
def TextReq.beyond (x : TextReq) (f : Frame) : Bool :=
  match x.last with
  | some l => l < f.seq || (f.last && f.seq != l)
  | none => f.last && f.seq < x.next
/-- A frame joins a request: with LAST, held frames beyond it are discarded, each with a report. -/
def State.holdFrame (s : State) (x : TextReq) (f : Frame) : State :=
  let late := if f.last then x.frames.filter (fun g => f.seq < g.1) else []
  let x := { x with
    frames := (x.frames.filter (fun g => !(f.last && f.seq < g.1))) ++ [(f.seq, f.last, f.payload)]
    last := if f.last then some f.seq else x.last
    arrived := s.time }
  let s := late.foldl (fun s _ => s.reportFrame x.ctx x.req) s
  (s.setText x).pumpText x.id
/-- A request's first frame: engines are assigned, and the open notice is sent (R290, R293).
(DEDUCED, log 23). -/
def State.openText (s : State) (c : Ctx) (process : Nat) (p : TextPath) (f : Frame) : State :=
  let x : TextReq :=
    { id := s.fresh, ctx := c.id, req := f.req, vh := f.vh, maxtok := f.maxtok, raddr := f.raddr, job := c.uejob,
      process := process, tok := f.req % 16, detok := f.req % 16, bind := p.tok, frames := [], next := 0, last := none, bytes := [], tokens := [], chunk := 0, arrived := s.time,
      offered := none, open_ := true }
  let s : State := s.bump
  let s : State := { s with mod := { s.mod with texts := s.mod.texts ++ [x] } }
  let s := s.owe (.openNotice { id := x.id, ctx := c.id, vh := f.vh, req := f.req, maxtok := f.maxtok, raddr := f.raddr,
                                job := c.uejob, process := process, detok := x.detok })
  s.holdFrame x f
/-- TEXT_FRAME: a frame reaches the text path of a context (R290, R292, R293). -/
def execTextFrame (s : State) : Host.Outcome State Fault Refusal :=
  match s.doing with
  | some (.textFrame ctx process bs) =>
    let f := frameOf bs
    .next (match s.ctx ctx with
      | none => s
      | some c =>
        match c.text, s.text ctx f.req with
        | none, _ => s.reportFrame ctx f.req
        | some p, old =>
          let repeats := (old.map (fun x => decide (f.seq < x.next) || x.frames.any (fun g => g.1 == f.seq))).getD false
          if f.bad || f.ctx != ctx || (s.vocabIn ctx f.vh).isEmpty || f.reply || repeats then
            (match old with
             | some x => s.abandonText x
             | none => s.reportFrame ctx f.req)
          else match old with
            | none => s.openText c process p f
            | some x =>
              if x.beyond f then s.reportFrame ctx f.req
              else if heldCap ≤ x.frames.length && (f.seq != x.next || x.offered.isSome) then s.owe (.textFrame ctx process bs)
              else s.holdFrame x f)
  | _ => .next s
/-- TOKEN_CHUNK: the chunk on offer has occurred, and the request goes on (R77, R292). -/
def execTokenChunk (s : State) : Host.Outcome State Fault Refusal :=
  match s.doing with
  | some (.tokenChunk id) =>
    .next (match s.textAt id with
      | none => s
      | some x =>
        (s.setText { x with offered := none, chunk := x.chunk + 1, tokens := x.tokens.drop 16 }).pumpText id)
  | _ => .next s
/-- Nanoseconds that a missing frame has (R293). -/
def frameLimit : Nat := 10000000
/-- MISSING_FRAME_TIMEOUT (R293). -/
def execMissingFrameTimeout (s : State) : Host.Outcome State Fault Refusal :=
  match s.doing with
  | some (.missingFrameTimeout id) =>
    .next (match s.textAt id with
      | none => s
      | some x =>
        if x.missing then State.abandonText { s with time := Nat.max s.time (x.arrived + frameLimit) } x else s)
  | _ => .next s

/-! ## The detokeniser (R293, R295) -/

/-- The reply state that chunks of a REQ belong to. -/
def State.replyOf (s : State) (ctx req : Nat) : Option Reply := s.mod.replies.find? (fun x => x.ctx == ctx && x.req == req)
/-- The reply state of a request by the request's own number. -/
def State.replyAt (s : State) (id : Nat) : Option Reply := s.mod.replies.find? (fun x => x.id == id)
/-- Replacing a reply state. -/
def State.setReply (s : State) (x : Reply) : State :=
  { s with mod := { s.mod with replies := updWhere (fun y => y.id == x.id) (fun _ => x) s.mod.replies } }
/-- A request is over: its reply state and its engines are freed. -/
def State.endReply (s : State) (id : Nat) : State := (s.freeText id).freeReply id
/-- A frame leaves the part, under its request's job and process. -/
def State.sendFrame (s : State) (r : Reply) (bs : List Byte) : State :=
  { s with mod := { s.mod with outs := s.mod.outs ++ [.frame r.job r.process bs] } }
/-- END_NOTICE: the single reply frame of a text without tokens (R293). -/
def execEndNotice (s : State) : Host.Outcome State Fault Refusal :=
  match s.doing with
  | some (.endNotice id) =>
    .next (match s.replyAt id with
      | none => s
      | some r => (s.sendFrame r (replyFrame r r.seq true [])).endReply id)
  | _ => .next s
/-- Taking a chunk off its binding: depth frees (R289).
(DEDUCED, log 23). -/
def State.takeChunk (s : State) (e : EvKey) (a : Act) : State :=
  let s := s.updEv e (fun x => { x with binding := x.binding.map (fun b =>
    { b with queue := b.queue.filter (fun y => y.inst ≠ a.inst), running := b.running.filter (fun y => y.inst ≠ a.inst) }) })
  let s := s.tryResolve e
  match (s.ev e).bind (fun x => x.launch) with
  | some l => s.checkLaunch l
  | none => s
/-- A dropped request is freed once its chunks are off its binding (R293). -/
def State.freeDropped (s : State) (r : Reply) : State :=
  if (s.chunksOf r.ctx r.req).isEmpty then s.endReply r.id else s
/-- OPEN_NOTICE (R293). A dropped request of the same REQ ends here: its chunks are taken off its binding, so that none
of them meets the new request (DEDUCED, log 23). -/
def execOpenNotice (s : State) : Host.Outcome State Fault Refusal :=
  match s.doing with
  | some (.openNotice n) =>
    let old := s.mod.replies.filter (fun x => x.ctx == n.ctx && x.req == n.req)
    let s := old.foldl (fun s r => ((s.chunksOf r.ctx r.req).foldl (fun s x => s.takeChunk x.1 x.2) s).freeReply r.id) s
    let r : Reply := { id := n.id, ctx := n.ctx, req := n.req, vh := n.vh, maxtok := n.maxtok, raddr := n.raddr, job := n.job,
                       process := n.process, detok := n.detok, emitted := 0, seq := 0, next := 0, held := [],
                       dropped := false }
    .next { s with mod := { s.mod with replies := s.mod.replies ++ [r] } }
  | _ => .next s
/-- DROP_NOTICE: the detokeniser emits nothing more for the request (R293). -/
def execDropNotice (s : State) : Host.Outcome State Fault Refusal :=
  match s.doing with
  | some (.dropNotice id) =>
    .next (match s.replyAt id with
      | none => s
      | some r =>
        let r := { r with dropped := true, held := [] }
        let s := s.setReply r
        let held := (s.chunksOf r.ctx r.req).filter (fun x =>
          (s.ev x.1).any (fun y => (y.binding.map (fun b => b.running.contains x.2)).getD false))
        (held.foldl (fun s x => s.takeChunk x.1 x.2) s).freeDropped r)
  | _ => .next s
/-- Most payload bytes of a frame (R76). -/
def frameMax : Nat := 65536
/-- Cutting a chunk's bytes into frames' payloads; a chunk of no bytes goes out in one empty frame. -/
def cutFrames : Nat → List Byte → List (List Byte)
  | 0, b => [b]
  | n + 1, b => if b.length ≤ frameMax then [b] else b.take frameMax :: cutFrames n (b.drop frameMax)
/-- Emitting a chunk in its turn (R295): whether the request is over, and what it leaves. Of a malformed chunk N counts as at
most 16, tokens by their low 18 bits, and reserved bits not at all (R77; DESIGN CHOICE, log 41). -/
def State.emitChunk (s : State) (r : Reply) (msg : List Byte) : Bool × State :=
  let n := fld msg 12 1
  let all := (List.range (Nat.min n 16)).map (fun j => fld msg (16 + 3 * j) 3 % 2 ^ 18)
  let ts := all.take (r.maxtok - r.emitted)
  let img := s.vocabIn r.ctx r.vh
  let bs := ts.flatMap (tokenBytes img)
  let finished := bitOf (fld msg 13 1) 0 || r.maxtok ≤ r.emitted + ts.length
  let parts := cutFrames 32 bs
  let s := (parts.zipIdx).foldl (fun s p =>
    s.sendFrame r (replyFrame r (r.seq + p.2) (finished && p.2 + 1 == parts.length) p.1)) s
  (finished, s.setReply { r with emitted := r.emitted + ts.length, seq := r.seq + parts.length, next := r.next + 1 })
/-- A request's last frame has gone: the chunks it still holds are discarded, each with a FRAME report, as chunks of no
open request, and its state is freed (R295, R326). -/
def State.closeReply (s : State) (r : Reply) : State :=
  let held := (s.chunksOf r.ctx r.req).filter (fun y => r.held.any (fun g => g.1 == fld y.2.msg 8 4))
  (held.foldl (fun s y => (s.takeChunk y.1 y.2).reportFrame r.ctx r.req) s).endReply r.id
/-- Emitting the held chunks of a request that have come into turn, each taken off its binding. -/
def State.emitHeld : Nat → EvKey → Nat → State → State
  | 0, _, _, s => s
  | n + 1, e, req, s =>
    match s.replyOf e.ctx req with
    | none => s
    | some r =>
      match r.held.find? (fun h => h.1 = r.next), (s.chunksOf e.ctx req).find? (fun x => fld x.2.msg 8 4 = r.next) with
      | some h, some x =>
        let r := { r with held := r.held.filter (fun g => g.1 ≠ h.1) }
        let (finished, s) := (s.setReply r).emitChunk r h.2
        let s := s.takeChunk x.1 x.2
        if finished then s.closeReply r else State.emitHeld n e req s
      | _, _ => s
/-- The detokeniser treats the next chunk that its binding has accepted (R295). -/
def State.detokenise (s : State) (e : EvKey) (a : Act) : State :=
  match s.replyOf e.ctx a.req with
  | none => (s.takeChunk e a).reportFrame e.ctx a.req
  | some r =>
    if r.dropped then (s.takeChunk e a).freeDropped r
    else
      let seq := fld a.msg 8 4
      if seq < r.next then s.takeChunk e a
      else if seq ≠ r.next then
        let s := s.updEv e (fun x => { x with binding := x.binding.map (fun b =>
          { b with queue := b.queue.filter (fun y => y.inst ≠ a.inst), running := b.running ++ [a] }) })
        s.setReply { r with held := r.held ++ [(seq, a.msg)] }
      else
        let (finished, s) := s.emitChunk r a.msg
        let s := s.takeChunk e a
        if finished then s.closeReply r else State.emitHeld (r.held.length + 1) e a.req s
/-- DETOKENISE_CHUNK (R295). -/
def execDetokeniseChunk (s : State) : Host.Outcome State Fault Refusal :=
  match s.doing with
  | some (.detokeniseChunk e) =>
    .next (match (s.ev e).bind (fun x => x.binding) with
      | none => s
      | some b =>
        match b.queue with
        | [] => s
        | a :: rest => if rest.isEmpty then s.detokenise e a else (s.detokenise e a).oweOnce (.detokeniseChunk e))
  | _ => .next s

/-! ## The scale-out ports (R349) -/

/-- A write or read operation acts on the memory of the context that owns its job, at its virtual addresses; one whose range
the context does not map so is refused (R349; DESIGN CHOICE, log 40). -/
def State.ueAccess (s : State) (c : Ctx) (job va n : Nat) (need : Need) (go : State → State) : State :=
  let nack (s : State) : State := { s with mod := { s.mod with outs := s.mod.outs ++ [.ueNack job] } }
  if 2 ^ 24 < n then s else
  let s := s.ctxReports c.id va n rootCore
  match s.ctxTrap c.id va n need with
  | some _ => nack s
  | none => if (s.ctxPas c.id va n).any (fun a => s.poisoned (.phys a 0)) && !need.w then nack s else go s
/-- ULTRA_ETHERNET_MESSAGE: a send that carries a text frame goes to the text path of the context that owns its job, and a
write or a read acts on its memory; a request for an unsupported delivery is refused, and a message of no context is
discarded (R290, R349). -/
def execUltraEthernetMessage (s : State) : Host.Outcome State Fault Refusal :=
  match s.doing with
  | some (.ultraEthernetMessage job process mode op bs) =>
    .next (match mode with
      | .rudi => { s with mod := { s.mod with outs := s.mod.outs ++ [.ueNack job] } }
      | .uud => { s with mod := { s.mod with outs := s.mod.outs ++ [.ueNack job] } }
      | _ =>
        match s.mod.ctxs.find? (fun c => c.uejob = job) with
        | some c =>
          match op with
          | .send => if 2 ^ 24 < bs.length then s else s.owe (.textFrame c.id process bs)
          | .write va => s.ueAccess c job va bs.length needW (fun s => s.ctxWrite c.id va bs)
          | .read va n => s.ueAccess c job va n needR (fun s =>
              let t := s.ctxTouch c.id va n
              { t with mod := { t.mod with outs := t.mod.outs ++ [.ueData job (s.ctxRead c.id va n)] } })
        | none => s)
  | _ => .next s

end Sys2Proof.Machine
end

