-- ==== Sys2Proof/Machine/Firmware.lean ====
section
/-! DEFINITION. Firmware's acts on reports (R326 to R330), pre-emption (R331, R332), interrupts (R340), boot and recovery
(R342 to R344), and attestation (R345 to R348). -/

namespace Sys2Proof.Machine

/-! ## Reports (R328, R329) -/

/-- The oldest report leaves the queue and fills the CSRs of the core that reads TRAPNEXT; the answer is 1, or 0 with an
empty queue (R328). -/
def State.popReport (s : State) (core : Nat) : Word × State :=
  match s.mod.reports with
  | [] => (0, s)
  | r :: rest =>
    let t : State := { s with mod := { s.mod with reports := rest, last := some r } }
    let t := t.admitReport
    (1, t.updRun core (fun o => { o with sup := { o.sup with
      trapcode := r.code, trappc := r.pc, trapaddr := r.addr, trapmsg := r.msg, trapseq := r.seq, trapsrc := r.src } }))
/-- TRAPNEXT (R328). -/
def execTrapnext (s : State) : Host.Outcome State Fault Refusal :=
  match s.doing with
  | some (.trapnext core) => .next (s.popReport core).2
  | _ => .next s
/-- The context of a report. -/
def Report.ctx (r : Report) : Nat := bits r.src.toNat 9 4
/-- A handler's activation runs again: it leaves the head of its binding's queue, and the binding is free (R330). -/
def State.takeAct (s : State) (a : Act) : State :=
  s.updEv a.e (fun x => { x with binding := x.binding.map (fun b =>
    { b with queue := b.queue.filter (fun y => y.inst ≠ a.inst), running := b.running ++ [a], held := false }) })
/-- RETRY: a held task becomes ready; one that still waits only loses its hold (R329). -/
def State.retryTask (s : State) (id : Nat) : State :=
  match s.task id with
  | none => s
  | some t =>
    let s := s.updTask id (fun t => { t with hold := false })
    let s := match t.act with
      | some a => if t.hold then s.takeAct a else s
      | none => s
    if t.st == .held then s.makeReady id else s
/-- The acts of TRAPACT. -/
inductive TrapAct where | retry | kill | host
  deriving DecidableEq, Repr
/-- Whether a report's task waits for an act: it is held, and not left with the driver. A task that has ended is none to
wait for (R162, R329). -/
def State.awaitsAct (s : State) (r : Report) : Bool :=
  match r.task.bind s.task with
  | none => true
  | some t => (t.hold || t.st == .held) && !s.mod.hosted.any (fun h => h.task == r.task)
/-- The last popped report, when TRAPACT may act on it: KIND 0 or 1, and its task not yet acted on (R329). -/
def State.actable (s : State) : Option Report :=
  match s.mod.last with
  | some r => if r.kind ≤ 1 && s.awaitsAct r then some r else none
  | none => none
/-- The effect of an act on a report's held task. HOST leaves the report with the driver; an act on a task that a teardown
has discarded does nothing (R329). -/
def State.performAct (s : State) (r : Report) (a : TrapAct) : State :=
  if r.gone then s else
  match a with
  | .retry =>
    match r.task with
    | some t => s.retryTask t
    | none => s
  | .kill => s.killContext r.ctx
  | .host =>
    (({ s with mod := { s.mod with hosted := s.mod.hosted ++ [r] } } : State).updMail (fun m =>
      { m with result := natBytes 8 r.ctx })).raiseVector 64
/-- Acting on the last popped report, which has been acted on with that (R329). -/
def State.actOn (s : State) (r : Report) (a : TrapAct) : State :=
  State.performAct { s with mod := { s.mod with last := none } } r a
/-- The driver's answer for a context that HOST reported to it: the oldest of its reports left with the driver (R329). -/
def State.driverAct (s : State) (ctx : Nat) (a : TrapAct) : State :=
  match s.mod.hosted.find? (fun r => r.ctx = ctx) with
  | none => s
  | some r => State.performAct { s with mod := { s.mod with hosted := s.mod.hosted.erase r } } r a
/-- An act by a root-controller core; one that is refused traps ILLEGAL there. -/
def State.trapAct (s : State) (core : Nat) (a : TrapAct) : State :=
  match s.actable with
  | some r => s.actOn r a
  | none => (s.focus core).trap .illegal
/-- RETRY, written to TRAPACT or answered by the driver (R329). -/
def execRetry (s : State) : Host.Outcome State Fault Refusal :=
  match s.doing with
  | some (.retry core) => .next (s.trapAct core .retry)
  | some (.driverRetry ctx) => .next (s.driverAct ctx .retry)
  | _ => .next s
/-- KILL, written to TRAPACT or answered by the driver (R329). -/
def execKill (s : State) : Host.Outcome State Fault Refusal :=
  match s.doing with
  | some (.kill core) => .next (s.trapAct core .kill)
  | some (.driverKill ctx) => .next (s.driverAct ctx .kill)
  | _ => .next s
/-- HOST (R329). -/
def execHost (s : State) : Host.Outcome State Fault Refusal :=
  match s.doing with
  | some (.host core) => .next (s.trapAct core .host)
  | _ => .next s

/-! ## Pre-emption (R331) -/

/-- The cores that a PREEMPT write names. -/
def State.preemptCores (s : State) (v : Word) : List Nat :=
  if v.getLsbD 6 then ((s.ctx (v.extractLsb' 0 6).toNat).map Ctx.cores).getD [] else [(v.extractLsb' 7 15).toNat]
/-- A core is asked to pre-empt a context. -/
def State.askPreempt (s : State) (ctx core : Nat) : State :=
  let c := s.sched core
  s.setSched { c with asked := if c.asked.contains ctx then c.asked else c.asked ++ [ctx] }
/-- Every named core is asked; one that runs nothing takes the request at once, the others at the end of their segment. -/
def State.askPreempts (s : State) (ctx : Nat) (cores : List Nat) : State :=
  let s := cores.foldl (fun s k => s.askPreempt ctx k) s
  (cores.filter (fun k => !(s.execOf k).run.on)).foldl (fun s k => s.preemptCore k ctx) s
/-- A core that holds a context pre-empted returns its tasks: ready ones in their previous order, then those whose offers
were withdrawn, and makes its COLLSTART offers again (R259, R331). -/
def State.resumeCore (s : State) (ctx core : Nat) : State :=
  let c := s.sched core
  if !c.preempted.contains ctx then s else
  let s := s.setSched { c with preempted := c.preempted.filter (· ≠ ctx) }
  let mine := s.mod.tasks.filter (fun t => t.core = core && t.ctx = ctx)
  let ready := sortBy (fun a b => decide (a.readySeq.getD 0 ≤ b.readySeq.getD 0)) (mine.filter (fun t => t.readySeq.isSome))
  let s := ready.foldl (fun s t => s.makeReady t.id) s
  let s := (mine.filter (fun t => t.st == .parked)).foldl (fun s t => s.wake t.id) s
  let colls := (s.collOffers core (fun k => ((s.launch k.launch).map (fun l => l.ctx == ctx)).getD false)).filter
    (fun r => r.state == .parked)
  let s := colls.foldl (fun s r => s.reoffer r.ro core) s
  let s := if mine.any (fun t => t.dequeNo.isSome && t.tcb.migrate) then s.callThieves ctx core else s
  s.oweOnce (.taskDispatch core)
/-- The jobs of a context that CTXSAVE stopped go on from their saved progress (R223, R334). -/
def State.resumeJobs (s : State) (ctx : Nat) : State :=
  let s : State := { s with mod := { s.mod with
    jobs := updWhere (fun j => j.ctx == ctx && j.halt == some .stopped) (fun j => { j with halt := none }) s.mod.jobs } }
  let stopped (j : Job) : Bool := j.ctx == ctx && j.st == .stopped
  let js := s.mod.jobs.filter (fun j => stopped j && j.kind == .coll)
  let s : State := { s with mod := { s.mod with jobs := updWhere stopped (fun j =>
    { j with st := if j.kind = .coll then .running else .queued }) s.mod.jobs } }
  (js.foldl (fun s j => s.oweOnce (s.stepOf j)) s).startJobs
/-- The effect of a PREEMPT write that is accepted (R331). -/
def State.preemptWrite (s : State) (v : Word) : State :=
  let ctx := (v.extractLsb' 0 6).toNat
  let cores := s.preemptCores v
  let s : State := { s with mod := { s.mod with preempt := v &&& 0x40000000003FFFFF } }
  if v.getLsbD 62 then
    let s := cores.foldl (fun s k => s.resumeCore ctx k) s
    let s := (s.updCtx ctx (fun c => { c with quiesced := false })).resumeJobs ctx
    s.preemptDone
  else (s.askPreempts ctx cores).preemptDone
/-- Whether a PREEMPT write is refused: a reserved bit, or the last request not done (R331). -/
def State.preemptRefused (s : State) (v : Word) : Bool := v.extractLsb' 22 40 != 0 || !s.mod.preempt.getLsbD 63
/-- PREEMPT: a write that pre-empts (R331). -/
def execPreempt (s : State) : Host.Outcome State Fault Refusal :=
  match s.doing with
  | some (.preempt v) =>
    .next (if s.preemptRefused v then s else s.preemptWrite (v &&& 0xBFFFFFFFFFFFFFFF))
  | _ => .next s
/-- PREEMPT_RESUME: a write that resumes (R331). -/
def execPreemptResume (s : State) : Host.Outcome State Fault Refusal :=
  match s.doing with
  | some (.preemptResume v) =>
    .next (if s.preemptRefused v then s else s.preemptWrite (v ||| 0x4000000000000000))
  | _ => .next s

/-! ## Interrupts (R340) -/

/-- IPEND with its report bit, which stays set while the report queue holds one (R340). -/
def State.ipendOf (s : State) (r : Run) : BitVec 4 :=
  if s.mod.reports.isEmpty then r.sup.ipend &&& 0xE else r.sup.ipend ||| 1
/-- Whether the focused root-controller core takes an interrupt (R340). -/
def State.interrupted (s : State) : Bool := s.run.kind == .root && s.run.on && s.run.sup.ie && s.ipendOf s.run != 0
/-- Taking it: TRAPCODE 0, and entry at TVEC as for a trap. -/
def State.takeInterrupt (s : State) : State := s.enterTrap 0 s.r.pc 0
/-- INTERRUPT (R340). -/
def execInterrupt (s : State) : Host.Outcome State Fault Refusal :=
  match s.doing with
  | some (.interrupt core) =>
    let t := s.focus core
    .next (if t.interrupted then t.takeInterrupt else s)
  | _ => .next s

/-! ## Firmware images and boot (R342, R343) -/

/-- The fields of a firmware image's header. -/
structure FwHeader where
  commitSvn : Bool
  svn : Nat
  len : Nat
  entry : Nat
  keyOff : Nat
  sigOff : Nat
  ok : Bool
  deriving DecidableEq, Repr
/-- Reading a header; `ok` says that every field is in range and every reserved bit zero. -/
def fwHeader (b : List Byte) : FwHeader where
  commitSvn := bitOf (fld b 6 2) 0
  svn := fld b 8 8
  len := fld b 16 4
  entry := fld b 20 4
  keyOff := fld b 24 4
  sigOff := fld b 28 4
  ok := fld b 0 4 == 0x57544644 && fld b 4 2 == 1 && fld b 6 2 < 2 && fld b 8 8 < 64 && 1 ≤ fld b 16 4 &&
    fld b 16 4 ≤ 8388608 - 64 && fld b 20 4 % 4 == 0 && fld b 20 4 < 64 + fld b 16 4 && 64 ≤ fld b 24 4 &&
    fld b 24 4 + keyLen ≤ fld b 28 4 && fld b 28 4 + sigLen ≤ 64 + fld b 16 4 && (slice b 32 32).all (fun x => x == 0)
/-- Bytes of a whole image. -/
def FwHeader.size (h : FwHeader) : Nat := 64 + h.len
/-- The digest that an image's signature covers (R342). -/
def fwDigest (b : List Byte) : BitVec 512 := sha3 (b.take (fwHeader b).sigOff)
/-- Steps 1 to 4 of R343. -/
def fwValid (b : List Byte) (svn : Nat) : Bool :=
  let h := fwHeader b
  h.ok && h.size ≤ b.length && sha3 (slice b h.keyOff keyLen) == Config.vendorKeyHash &&
    mldsaVerify (slice b h.keyOff keyLen) (digestBytes (fwDigest b)) (slice b h.sigOff sigLen) && svn ≤ h.svn
/-- What every reset leaves (R343, R344): memory, the flash, the fuses, INIT of the wear monitors (R363) and TIME stay; every
context ends, and a write of the flash ends where it stands.
(DEDUCED, log 29). -/
def State.cleared (s : State) (boot : BitVec 4) : State :=
  { State.reset with
    mem := s.mem, pending := [], time := s.time, cycle := s.cycle, tick := s.tick, doing := s.doing
    mod := { Module.reset with
      boot := { s.mod.boot with state := boot, mr1 := 0, word40 := 0, writing := none }
      health := { Health.reset with mons := s.mod.health.mons.map (fun m => { m with now := 0, slope := 0 }) }
      outs := s.mod.outs, nextId := s.mod.nextId, saved := s.mod.saved } }
/-- A root-controller core as the ROM starts it: at ENTRY, in supervisor mode, IE at 0 (R343). -/
def bootExec (core entry : Nat) : Exec :=
  { Exec.fresh core with
    r := { Regs.reset with pc := BitVec.ofNat 64 entry }, run := { Run.fresh .root with on := true } }
/-- All 16 root-controller cores start. -/
def State.startCores (s : State) (entry : Nat) : State :=
  let e := bootExec rootCore entry
  { s with core := rootCore, r := e.r, run := e.run, rank := e.rank
           mod := { s.mod with others := (List.range 15).map (fun i => bootExec (rootCore + 1 + i) entry) } }
/-- Step 5 and 6 of R343 with an image that passed.
(DEDUCED, log 29). -/
def State.bootImage (s : State) (b : List Byte) : State :=
  let h := fwHeader b
  let s := s.cleared 1
  let svn := if h.commitSvn then Nat.max s.mod.boot.svn h.svn else s.mod.boot.svn
  let t : State := { s with
    sram := Memory.write [] 0 (b.take h.size)
    mod := { s.mod with boot := { s.mod.boot with svn := svn, mr1 := extend 0 (fwDigest b) } } }
  t.startCores h.entry
/-- The value at mailbox word 0x040 by which a function-level reset enters recovery (R344). -/
def updateWord : Word := 0x00000000D4E10001
/-- Bytes of a flash slot that an image may use. -/
def imageMax : Nat := 8388608
/-- A reset: every context ends, and the ROM is to verify the flash, BOOTSTATE 0 until it has (R343, R344). -/
def State.startRom (s : State) : State := (s.cleared 0).owe (.heartwoodBoot .verify)
/-- The ROM verifies the flash, and boots its image or enters recovery (R343, R344). -/
def State.romVerify (s : State) : State :=
  let b := s.mod.boot.flash.read 0 (Nat.min imageMax (fwHeader (s.mod.boot.flash.read 0 64)).size)
  if Config.fusesForbid then s.cleared 4
  else if fwValid b s.mod.boot.svn then s.bootImage b
  else s.cleared 2
/-- HEARTWOOD_BOOT: a deassertion of PERST, a function-level reset, which enters recovery at once where word 0x040 asks for
an update, and what the ROM does next (R343, R344). -/
def execHeartwoodBoot (s : State) : Host.Outcome State Fault Refusal :=
  match s.doing with
  | some (.heartwoodBoot cause) =>
    .next (match cause with
      | .perst => s.startRom
      | .flr => if s.mod.boot.word40 = updateWord then s.cleared 2 else s.startRom
      | .verify => s.romVerify)
  | _ => .next s
/-- Where this model holds the host's memory beside the part's own physical addresses (DEDUCED, log 8). -/
def hostAddr (pa : Nat) : Nat := 2 ^ 64 + pa
/-- Changing the boot state. -/
def State.updBoot (s : State) (f : Boot → Boot) : State := { s with mod := { s.mod with boot := f s.mod.boot } }
/-- More bytes of a recovery image are written to the flash, how many is left free; after the last the ROM answers OK and
boots it. A reset before that leaves the flash torn (R344). -/
def State.writeFlash (s : State) (tag pa n : Nat) (b : List Byte) (k : Nat) : State :=
  let m := k + 1 + Config.pick s.tick % Nat.max 1 (b.length - k)
  let s := s.updBoot (fun x => { x with flash := x.flash.write k (slice b k (m - k)) })
  if b.length ≤ m then
    ((s.updBoot (fun x => { x with writing := none })).reply tag mailOk []).owe (.heartwoodBoot .verify)
  else (s.updBoot (fun x => { x with writing := some (b, m) })).owe (.recover tag pa n)
/-- RECOVER: in recovery the ROM reads an image from the host, checks it, writes the flash and boots it (R344). -/
def execRecover (s : State) : Host.Outcome State Fault Refusal :=
  match s.doing with
  | some (.recover tag pa n) =>
    .next (s.mailServe tag fun s =>
      if s.mod.boot.state ≠ 2 ∧ s.mod.boot.state ≠ 3 then s.reply tag mailBadCmd []
      else match s.mod.boot.writing with
        | some (b, k) => s.writeFlash tag pa n b k
        | none =>
          if n < 96 ∨ imageMax < n then s.reply tag mailBadArg []
          else
            let b := s.mem.read (hostAddr pa) n
            if fwValid b s.mod.boot.svn then
              (s.updBoot (fun x => { x with state := 3, writing := some (b, 0) })).owe (.recover tag pa n)
            else s.reply tag mailDenied [])
  | _ => .next s

/-! ## Attestation (R347, R348) -/

/-- An MCTP answer leaves the part. -/
def State.answer (s : State) (bs : List Byte) : State := { s with mod := { s.mod with outs := s.mod.outs ++ [.mctp bs] } }
/-- The seed of the device identity key (R347). -/
def identitySeed : List Byte := (digestBytes (sha3 (digestBytes Config.deviceSecret))).take 32
/-- The identity public key. -/
def identityKey : List Byte := mldsaPublic identitySeed
/-- Bytes 0 to 383 of a report, for a context or none (R347). -/
def State.reportBody (s : State) (c : Option Ctx) (nonce : List Byte) : List Byte :=
  natBytes 4 0x52544144 ++ natBytes 2 1 ++ natBytes 1 ((c.map (fun c => c.id)).getD 0xFF) ++ natBytes 1 0 ++
    natBytes 8 s.mod.boot.svn ++ (padTo 32 nonce).take 32 ++ digestBytes Config.mr0 ++ digestBytes s.mod.boot.mr1 ++
    digestBytes ((c.map (fun c => c.mrv)).getD 0) ++ digestBytes ((c.map (fun c => c.mrl)).getD 0) ++
    natBytes 4 ((c.map (fun c => c.nvoc)).getD 0) ++ natBytes 4 ((c.map (fun c => c.nlnc)).getD 0) ++
    digestBytes (sha3 identityKey) ++ zeros 8
/-- The signed report. -/
def State.signedReport (s : State) (c : Option Ctx) (nonce : List Byte) : List Byte :=
  let b := s.reportBody c nonce
  let m := digestBytes (sha3 b)
  b ++ mldsaSign identitySeed m (natBytes 32 (Config.signNonce m).toNat)
/-- GET_REPORT, and every MCTP request of a code that R348 does not list, which is answered BADCMD (R347, R348). A context
that is not allocated is answered BADARG (DESIGN CHOICE, log 29). -/
def execGetReport (s : State) : Host.Outcome State Fault Refusal :=
  match s.doing with
  | some (.getReport id nonce) =>
    .next (if id = 0xFF then s.answer (s.signedReport none nonce)
      else match s.ctx id with
        | some c => s.answer (s.signedReport (some c) nonce)
        | none => s.answer [2])
  | some (.mctpOther _) => .next (s.answer [1])
  | _ => .next s
/-- SET_TENANT_KEY (R348). -/
def execSetTenantKey (s : State) : Host.Outcome State Fault Refusal :=
  match s.doing with
  | some (.setTenantKey id key) =>
    .next (if key.length = keyLen ∧ (s.ctx id).isSome then (s.updCtx id (fun c => { c with key := some key })).answer [0]
      else s.answer [2])
  | _ => .next s
/-- GET_IDENTITY (R348). -/
def execGetIdentity (s : State) : Host.Outcome State Fault Refusal :=
  match s.doing with
  | some .getIdentity => .next (s.answer identityKey)
  | _ => .next s

end Sys2Proof.Machine
end

