-- ==== Sys2Proof/Machine/Save.lean ====
section
/-! DEFINITION. Saving a context to its area and loading it again (R223, R333 to R335), and the mailbox commands that do
so (R357). -/

namespace Sys2Proof.Config
open Sys2Proof.Machine

/-! What a save area that another part wrote stands for beyond the fields that R335 gives it, by the step in which it is
loaded (R223; DESIGN CHOICE, log 12). -/

/-- Its tasks. -/
opaque areaTasks : Nat → List Task
/-- Its engine jobs. -/
opaque areaJobs : Nat → List Job
/-- Its launches, with their declarations. -/
opaque areaLaunches : Nat → List Launch
/-- Its events, with their names. -/
opaque areaEvents : Nat → List EvState
/-- Its choice records. -/
opaque areaRecs : Nat → List Rec
/-- Its text requests. -/
opaque areaTexts : Nat → List TextReq
/-- Its reply states. -/
opaque areaReplies : Nat → List Reply
/-- Its ranks, with their launches and places. -/
opaque areaRanks : Nat → List RankSt
/-- Its group rows, with their launches. -/
opaque areaGroups : Nat → List Group
/-- The clusters of its partition. -/
opaque areaClusters : Nat → List Nat
/-- Its text path. -/
opaque areaText : Nat → Option TextPath
/-- Its registers and the fields of its descriptor, by index. -/
opaque areaWord : Nat → Nat → Word

end Sys2Proof.Config

namespace Sys2Proof.Machine

/-! ## Quiesced contexts (R223, R357) -/

/-- Every core of a context holds it pre-empted, and none runs a segment of it. -/
def State.isQuiesced (s : State) (c : Ctx) : Bool :=
  c.cores.all (fun k => (s.sched k).preempted.contains c.id) && !s.mod.tasks.any (fun t => t.ctx == c.id && t.st == .running)
/-- The context of a text request, by its number. -/
def State.textCtx (s : State) (id : Nat) : Option Nat :=
  match (s.textAt id).map (fun x => x.ctx) with
  | some c => some c
  | none => (s.replyAt id).map (fun x => x.ctx)
/-- The context that a step between knots, engines and cores still acts for. -/
def State.inFlightFor (s : State) (ctx : Nat) : Owed → Bool
  | .claim _ e _ => e.ctx == ctx
  | .grant e _ => e.ctx == ctx
  | .revoke e _ => e.ctx == ctx
  | .released _ e => e.ctx == ctx
  | .release _ e => e.ctx == ctx
  | .refuse e _ => e.ctx == ctx
  | .commit c => c.e.ctx == ctx
  | .withdraw e _ => e.ctx == ctx
  | .tilePayload c => c.e.ctx == ctx
  | .handlerActivation e => e.ctx == ctx
  | .abortColl e => e.ctx == ctx
  | .userRoutine e => e.ctx == ctx
  | .tokenChunk id => s.textCtx id == some ctx
  | .openNotice n => n.ctx == ctx
  | .endNotice id => s.textCtx id == some ctx
  | .dropNotice id => s.textCtx id == some ctx
  | .detokeniseChunk e => e.ctx == ctx
  | _ => false
/-- A context whose occurrences under way have all reached their parties: CTXSAVE waits for it (R223 step 2).
(DEDUCED, log 30). -/
def State.settled (s : State) (ctx : Nat) : Bool :=
  !s.pending.any (s.inFlightFor ctx) &&
    !s.mod.events.any (fun x => x.key.ctx == ctx && (x.round.isSome || !x.user.isEmpty)) &&
    !s.mod.recs.any (fun r => r.alts.any (fun a => a.e.ctx == ctx) && (match r.state with
      | .withdrawn _ => true
      | .claimed _ _ => true
      | _ => false))

/-! ## The bytes of a save area (R335) -/

def EvKind.code : EvKind → Nat
  | .group => 0 | .counted => 1 | .binding => 2 | .collstart => 3
def Combine.code : Combine → Nat
  | .none => 0 | .pick => 1 | .sum => 2 | .min => 3 | .max => 4 | .bor => 5 | .band => 6 | .gather => 7 | .exchange => 8
  | .broadcast => 9 | .user => 10 | .drainAdd => 11 | .drainMov => 12
def PayClass.code : PayClass → Nat
  | .none => 0 | .inline => 1 | .tile => 2
def EvElem.code : EvElem → Nat
  | .raw => 0 | .i8 => 1 | .i32 => 2 | .i64 => 3 | .f32 => 4 | .bf16 => 5 | .f16 => 6
/-- The scope code of a descriptor; other scopes have none (R236). -/
def scopeCode : Scope → Nat
  | .die => 2 | .mod => 3 | .sys => 4 | _ => 0
/-- The 16 bytes of a descriptor, KNOT included (R236). -/
def Desc.image (d : Desc) : List Byte :=
  natBytes 1 d.kind.code ++ natBytes 1 d.combine.code ++ natBytes 1 (d.cls.code + 16 * d.elem.code) ++ natBytes 1 0 ++
    natBytes 2 d.bytes ++ natBytes 2 d.group ++ natBytes 4 d.arg ++ natBytes 2 d.deadline ++
    natBytes 2 (d.knot % 256 + 256 * scopeCode d.scope)
/-- A knot record of section 0, its payload beside it. -/
structure KnotRow where
  ev : Nat
  type : Nat
  inst : Nat
  sender : Nat
  need : Nat
  elapsed : Nat
  stamp : Nat
  payload : List Byte
  deriving DecidableEq, Repr
/-- A stamp cat(T, U) as a word (R241). -/
def stampWord (p : Stamp) : Nat := p.t % 2 ^ 48 * 2 ^ 16 + p.u % 2 ^ 16
/-- What a record of section 0 is: the arming of an event, one of its accepted messages, or one of its offers. -/
inductive RowOf where
  | arming
  | message (i : Nat)
  | offer (i : Nat)
  deriving DecidableEq, Repr
/-- A record of section 0: its event in the list of those saved, what it is, and the step in which it arrived. -/
structure RowRef where
  ev : Nat
  of_ : RowOf
  came : Nat
  deriving DecidableEq, Repr
/-- Messages that a binding has accepted and not yet started. -/
def EvState.accepted (x : EvState) : List Act := (x.binding.map (fun b => b.queue)).getD []
/-- The records of an event at its knot. -/
def EvState.refs (x : EvState) (n : Nat) : List RowRef :=
  (if x.armed then [{ ev := n, of_ := .arming, came := x.came }] else []) ++
    x.accepted.zipIdx.map (fun a => { ev := n, of_ := .message a.2, came := a.1.came }) ++
    x.offers.zipIdx.map (fun o => { ev := n, of_ := .offer o.2, came := o.1.came })
/-- The records of the events saved, in arrival order (R335). -/
def Saved.refs (x : Saved) : List RowRef :=
  sortBy (fun a b => decide (a.came ≤ b.came)) (x.events.zipIdx.flatMap (fun e => e.1.refs e.2))
/-- A record of an event. -/
def EvState.row (time : Nat) (x : EvState) (r : RowOf) : Option KnotRow :=
  let el := (x.clock.map (fun t => (time - t) / 1000)).getD 0
  let row (type sender stamp : Nat) (bs : List Byte) : KnotRow :=
    { ev := x.key.ev, type := type, inst := x.inst, sender := sender, need := x.need, elapsed := el, stamp := stamp,
      payload := bs }
  let kind (o : Offer) : Nat :=
    match x.desc.kind with
    | .binding => 2
    | .collstart => 4
    | _ => if o.rank.isNone then 3 else 1
  match r with
  | .arming => some (row 0 (2 ^ 32 - 1) 0 [])
  | .message i => x.accepted[i]?.map (fun a =>
      { row 2 (a.sender.getD (2 ^ 32 - 1)) (stampWord a.stamp) a.msg with inst := a.inst })
  | .offer i => x.offers[i]?.map (fun o => row (kind o) (o.rank.getD (2 ^ 32 - 1)) (stampWord o.stamp) o.bytes)
/-- The records of section 0. -/
def Saved.rows (x : Saved) : List KnotRow := x.refs.filterMap (fun r => x.events[r.ev]?.bind (fun e => e.row x.time r.of_))
/-- Bytes padded with zeros to a multiple of 16. -/
def pad16 (bs : List Byte) : List Byte := bs ++ zeros ((16 - bs.length % 16) % 16)
/-- Sections 0 and 7 from the records, with the payload bytes before them. -/
def rowBytes : List KnotRow → Nat → List Byte × List Byte
  | [], _ => ([], [])
  | r :: rs, off =>
    let p := pad16 r.payload
    let (a, b) := rowBytes rs (off + p.length)
    (natBytes 4 (r.ev % 2 ^ 20 + r.type * 2 ^ 20) ++ natBytes 4 r.inst ++ natBytes 4 r.sender ++
      natBytes 4 (r.need % 2 ^ 16 + r.elapsed % 2 ^ 16 * 2 ^ 16) ++ natBytes 8 r.stamp ++
      natBytes 8 (if p.isEmpty then 2 ^ 64 - 1 else off) ++ a, p ++ b)
/-- A group table as GTAB lays it out: a head for each row, then the member lists (R310). -/
def groupBytes (gs : List Group) : List Byte :=
  let heads := gs.foldl (fun (acc : List Byte × Nat) g =>
    (acc.1 ++ natBytes 4 acc.2 ++ natBytes 4 g.ranks.length, acc.2 + g.ranks.length)) ([], 2 * gs.length)
  heads.1 ++ gs.flatMap (fun g => g.ranks.flatMap (natBytes 4))
/-- A rank's three queue headers (R334). -/
def rankHeads (jobs : List Job) (k : RankSt) : List Byte :=
  [EngKind.copy, .text, .coll].flatMap (fun e =>
    let n := k.issued[engIx e]
    let live := jobs.filter (fun j => j.rank == k.key && j.kind.eng == e && j.st != .done)
    let head := ((live.map (fun j => j.no)).head?).getD (n % 65536)
    natBytes 4 (head % engCap e) ++ natBytes 4 (n % engCap e) ++ natBytes 8 n ++ zeros 48)
/-- 128 bytes of a text request: REQ, its engines, frames held, bytes consumed, chunk and reply SEQ. -/
def textImage (replies : List Reply) (x : TextReq) : List Byte :=
  let reply := ((replies.find? (fun r => r.id == x.id)).map (fun r => r.seq)).getD 0
  padTo 128 (natBytes 8 x.req ++ natBytes 2 x.tok ++ natBytes 2 x.detok ++ natBytes 4 x.frames.length ++
    natBytes 8 x.eaten ++ natBytes 4 x.chunk ++ natBytes 4 reply)
/-- 16 bytes of a summary tap: rank, pair offset, TOGGLE, BUSY, copy job number. -/
def tapImage (taps : List (Nat × Byte × Bool)) (j : Job) : List Byte :=
  match j.kind, taps.find? (fun t => t.1 = j.id) with
  | .tap off, some (_, tog, busy) =>
    natBytes 4 j.rank.rank ++ natBytes 4 off ++ natBytes 1 tog.toNat ++ natBytes 1 (b2n busy) ++ natBytes 2 j.no ++ zeros 4
  | _, _ => []
/-- TOGGLE and BUSY of the pairs of taps under way, by job (R58). -/
def State.tapsOf (s : State) (ctx : Nat) : List (Nat × Byte × Bool) :=
  s.mod.jobs.filterMap (fun j =>
    match j.kind with
    | .tap off =>
      if j.ctx ≠ ctx ∨ j.st = .done then none else (s.getRank j.rank).map (fun k =>
        (j.id, k.c.get (off + 3), bitOf (k.c.get (off + 2)).toNat 1))
    | _ => none)
/-- The eight sections of an area: element count and bytes. -/
def Saved.sections (x : Saved) : List (Nat × List Byte) :=
  let rows := x.rows
  let taps := x.jobs.filter (fun j => (match j.kind with | .tap _ => true | _ => false) && j.st != .done)
  let (knots, pays) := rowBytes rows 0
  [(rows.length, knots), (x.ctx.groups.length, groupBytes x.ctx.groups),
   (x.events.length, x.events.flatMap (fun e => e.desc.image)), (x.ranks.length, x.ranks.flatMap RankSt.image),
   (x.ranks.length, x.ranks.flatMap (rankHeads x.jobs)), (x.texts.length, x.texts.flatMap (textImage x.replies)),
   (taps.length, taps.flatMap (tapImage x.taps)), ((rows.filter (fun r => !r.payload.isEmpty)).length, pays)]
/-- The directory and the sections from an offset on. -/
def sectionBytes : List (Nat × List Byte) → Nat → List Byte × List Byte
  | [], _ => ([], [])
  | (n, bs) :: rest, off =>
    let p := pad16 bs
    let (d, t) := sectionBytes rest (off + p.length)
    (natBytes 8 off ++ natBytes 4 n ++ zeros 4 ++ d, p ++ t)
/-- MAGIC of a save area. -/
def saveMagic : Nat := 0x54535844
/-- The bytes of a save area. -/
def Saved.bytes (x : Saved) : List Byte :=
  let (dir, secs) := sectionBytes x.sections 256
  padTo 256 (natBytes 4 saveMagic ++ natBytes 2 1 ++ natBytes 1 x.ctx.id ++ zeros 9 ++ dir) ++ secs

/-! ## CTXSAVE (R223) -/

/-- Each job of a context stops at its next row, step or frame, a started collective with all its members, and shows its
progress in the virtual queue. -/
def State.stopJobs (s : State) (ctx : Nat) : State :=
  let on (j : Job) : Bool := j.ctx == ctx && (j.st == .running || j.st == .held || (j.st == .queued && j.kind != .coll))
  let s : State := { s with mod := { s.mod with jobs := updWhere on (fun j => j.stopAs .stopped) s.mod.jobs } }
  (s.mod.jobs.filter (fun j => j.ctx == ctx && j.st == .stopped)).foldl (fun s j => s.mirrorId j.id) s
/-- Whether a job of a context has still to reach the end of a row or step at which it stops. -/
def State.stopping (s : State) (ctx : Nat) : Bool := s.mod.jobs.any (fun j => j.ctx == ctx && j.halt == some .stopped)
/-- Everything that the part holds for a context, as it is saved at an address. -/
def State.saveOf (s : State) (c : Ctx) (pa : Nat) : Saved where
  pa := pa
  ctx := c
  regs := s.ctxRegs c.id
  ranks := (s.allRanks.filter (fun k => k.ctx = c.id)).map (fun k =>
    let k := (s.getRank k.key).getD k
    if k.place.isSome then { k with w := [], a := [], c := [], unsaved := 0 } else k)
  taps := s.tapsOf c.id
  tasks := s.mod.tasks.filter (fun t => t.ctx = c.id)
  jobs := s.mod.jobs.filter (fun j => j.ctx = c.id)
  launches := s.mod.launches.filter (fun l => l.ctx = c.id && l.st != .ended)
  events := s.mod.events.filter (fun x => x.key.ctx = c.id)
  recs := s.mod.recs.filter (fun r => r.alts.any (fun a => a.e.ctx == c.id))
  texts := s.mod.texts.filter (fun x => x.ctx = c.id)
  replies := s.mod.replies.filter (fun x => x.ctx = c.id)
  time := s.time
/-- The ranks of a context that are resident are written back, as at a change of residency: a save area holds no buffers
(R319, R335; DEDUCED, log 39). -/
def State.writeBack (s : State) (ctx : Nat) : State :=
  (s.residents.filter (fun k => k.ctx = ctx)).foldl (fun s k => s.writeBlocks k k.unsaved) s
/-- Saving a quiesced context at a physical address. -/
def State.ctxSave (s : State) (c : Ctx) (pa : Nat) : State :=
  let s := (s.stopJobs c.id).writeBack c.id
  let x := s.saveOf c pa
  let s := s.physWrite pa x.bytes
  { s with mod := { s.mod with saved := x :: s.mod.saved.filter (fun y => y.pa ≠ pa) } }

/-! ## CTXLOAD (R223) -/

/-- How a context's names change when it is loaded: identifiers shift, the context has a new number, and the cores of
its old partition stand for those of the new one. -/
structure Reload where
  shift : Nat
  ctx : Nat
  old : List Nat
  new : List Nat
  deriving DecidableEq, Repr
/-- Identifiers; 0 is none. -/
def Reload.id (m : Reload) (n : Nat) : Nat := if n = 0 then 0 else n + m.shift
def Reload.core (m : Reload) (k : Nat) : Nat :=
  match m.old.findIdx? (fun x => x == k) with
  | some i => m.new.getD (i % m.new.length) k
  | none => k
def Reload.key (m : Reload) (k : RankKey) : RankKey := { k with launch := m.id k.launch }
def Reload.ev (m : Reload) (e : EvKey) : EvKey := { e with ctx := m.ctx }
def Reload.alt (m : Reload) (a : Alt) : Alt := { a with e := m.ev a.e }
def Reload.act (m : Reload) (a : Act) : Act := { a with e := m.ev a.e, rank := m.key a.rank }
def Reload.rank (m : Reload) (k : RankSt) : RankSt :=
  { k with key := m.key k.key, ctx := m.ctx, core := m.core k.core, unsaved := 0, place := none, slot := 0 }
def Reload.task (m : Reload) (t : Task) : Task :=
  { t with
    id := m.id t.id, rank := m.key t.rank, ctx := m.ctx, core := m.core t.core, act := t.act.map m.act
    st := match t.st with
      | .waiting ro => .waiting (m.id ro)
      | st => st
    wait := t.wait.map (fun w => { w with alts := w.alts.map m.alt }) }
/-- TRAPSRC of a report that the loaded context may still make: its context and its core (R327). -/
def Reload.src (m : Reload) (w : Word) : Word :=
  trapsrcWord (bits w.toNat 60 48) (bits w.toNat 47 45) (m.core (bits w.toNat 44 30)) (bits w.toNat 29 10) m.ctx
    (bits w.toNat 3 0)
def Reload.job (m : Reload) (j : Job) : Job :=
  { j with id := m.id j.id, task := m.id j.task, ctx := m.ctx, rank := m.key j.rank, core := m.core j.core,
           cev := j.cev.map m.ev, by_ := { j.by_ with src := m.src j.by_.src } }
def Reload.launch (m : Reload) (l : Launch) : Launch := { l with id := m.id l.id, ctx := m.ctx }
def Reload.offer (m : Reload) (o : Offer) : Offer := { o with ro := m.id o.ro, job := m.id o.job }
def Reload.binding (m : Reload) (b : Binding) : Binding :=
  { b with
    rank := m.key b.rank, queue := b.queue.map m.act, running := b.running.map m.act
    stage := b.stage.map (fun g => { g with cores := g.cores.map (fun c =>
      { c with core := m.core c.core, joins := c.joins.map (fun e => { e with ctx := m.ctx }) }) }) }
/-- An event's record; its deadline clock goes on from the time that had elapsed (R248). -/
def Reload.event (m : Reload) (now saved : Nat) (x : EvState) : EvState :=
  { x with
    key := m.ev x.key, launch := x.launch.map m.id, offers := x.offers.map m.offer
    clock := x.clock.map (fun t => now - (saved - t)), binding := x.binding.map m.binding
    coll := x.coll.map (fun c => { c with jobs := c.jobs.map m.id }), engine := x.engine.map m.id
    user := x.user.map m.offer, armer := x.armer.map m.id }
def Reload.owner (m : Reload) : Owner → Owner
  | .wait t => .wait (m.id t)
  | .try_ t c => .try_ (m.id t) (m.core c)
  | .deferred t c pc seq => .deferred (m.id t) (m.core c) pc seq
  | .arm t c pc seq n => .arm (m.id t) (m.core c) pc seq n
  | .engine j => .engine (m.id j)
  | .armev l n => .armev (m.id l) n
  | .waitev l i => .waitev (m.id l) i
  | .sigev l i => .sigev (m.id l) i
  | .text id => .text (m.id id)
  | .coll t c pc seq j => .coll (m.id t) (m.core c) pc seq (m.id j)
def Reload.record (m : Reload) (r : Rec) : Rec :=
  { r with ro := m.id r.ro, owner := m.owner r.owner, rank := r.rank.map m.key, alts := r.alts.map m.alt,
           state := match r.state with
             | .parked => .parked
             | _ => .open_
           held := [], cancel := none, backoff := [] }
def Reload.text (m : Reload) (x : TextReq) : TextReq := { x with id := m.id x.id, ctx := m.ctx, offered := x.offered.map m.id }
def Reload.reply (m : Reload) (x : Reply) : Reply := { x with id := m.id x.id, ctx := m.ctx }
/-- The events of a loaded context are homed at knots of its new partition (R223, R238). -/
def State.homeLoaded (s : State) (c : Ctx) : State :=
  (s.mod.events.filter (fun x => x.key.ctx = c.id)).foldl (fun s x =>
    s.updEv x.key (fun y => { y with desc := s.home c y.desc (s.memberCores x) y.peers })) s
/-- What a loaded context still waits for: refused offers are sent again, clocks and activations go on. -/
def State.oweLoaded (s : State) (ctx : Nat) : State :=
  let evs := s.mod.events.filter (fun x => x.key.ctx = ctx)
  let s := evs.foldl (fun s x =>
    let s := if x.clock.isSome then s.oweOnce (.deadline x.key) else s
    match x.binding with
    | some b => if b.queue.isEmpty then s else s.oweOnce (if b.engine then .detokeniseChunk x.key else .handlerActivation x.key)
    | none => s) s
  let at_ (e : EvKey) (ro : Nat) : Bool := evs.any (fun x => x.key == e && x.offers.any (fun o => o.ro == ro))
  let mine := s.mod.recs.filter (fun r => r.live && r.alts.any (fun a => a.e.ctx == ctx))
  let s := (s.mod.texts.filter (fun x => x.ctx = ctx && x.missing)).foldl (fun s x => s.oweOnce (.missingFrameTimeout x.id)) s
  mine.foldl (fun s r => (r.alts.zipIdx).foldl (fun s a =>
    if at_ a.1.e r.ro then s else s.owe (.offer r.ro a.2)) s) s
/-- TOGGLE and BUSY of a tap's pair, as an area gives them (R223). -/
def State.restoreTap (s : State) (job : Nat) (tog : Byte) (busy : Bool) : State :=
  match s.job job with
  | none => s
  | some j =>
    match j.kind with
    | .tap off => (s.rankWrite j.rank .c (off + 3) [tog]).updRank j.rank (fun k => k.setBusy off busy)
    | _ => s
/-- Copies of a loaded context go on at the row that their slots in device memory show (R223, R334). -/
def State.readProgress (s : State) (ctx : Nat) : State :=
  let prog (j : Job) : Nat :=
    let a := vqBlock j.rank.rank (s.ctxRegs ctx).vqbase.toNat + vqSlots .copy + vqSlotSize .copy * (j.no % engCap .copy) + 32
    match s.ctxTrap ctx a 8 needR with
    | some _ => j.prog
    | none => leNat (s.ctxRead ctx a 8)
  { s with mod := { s.mod with
    jobs := updWhere (fun j => j.ctx == ctx && j.kind.eng == .copy && j.st == .stopped) (fun j => { j with prog := prog j }) s.mod.jobs } }
/-- A saved context put into an allocated context, which is left quiesced. Its identifiers move past all those in use.
(DEDUCED, log 30). -/
def State.reload (s : State) (x : Saved) (id : Nat) : State :=
  match s.ctx id with
  | none => s
  | some c =>
    let m : Reload := { shift := s.fresh, ctx := id, old := x.ctx.cores, new := c.cores }
    let tasks := x.tasks.map m.task
    let s := s.updCtx id (fun c => { c with quiesced := true, text := x.ctx.text, groups := x.ctx.groups.map (fun g =>
      { g with launch := m.id g.launch }) })
    let t : State := { s with mod := { s.mod with
      tasks := s.mod.tasks ++ tasks
      jobs := s.mod.jobs ++ x.jobs.map m.job
      launches := s.mod.launches ++ x.launches.map m.launch
      events := s.mod.events.filter (fun y => y.key.ctx ≠ id) ++ x.events.map (m.event s.time x.time)
      recs := s.mod.recs ++ x.recs.map m.record
      texts := s.mod.texts ++ x.texts.map m.text
      replies := s.mod.replies ++ x.replies.map m.reply
      nextId := 2 * s.fresh + 1 } }
    let t := (x.ranks.map (fun k => m.rank (k.withImage s.mem))).foldl (fun t k => t.placeRank k) t
    let t := x.taps.foldl (fun s p => s.restoreTap (m.id p.1) p.2.1 p.2.2) t
    let t := t.readProgress id
    let t := m.new.foldl (fun (s : State) k =>
      let c := s.sched k
      s.setSched { c with
        preempted := if c.preempted.contains id then c.preempted else c.preempted ++ [id]
        dq := (tasks.filter (fun t => t.core = k)).foldl (fun n t => Nat.max n (t.dequeNo.elim 0 (· + 1))) c.dq }) t
    ((tasks.foldl (fun s t => s.reslot t.id none) t).homeLoaded c).oweLoaded id
/-- Offset of a section, from the directory of an area. -/
def areaOff (b : List Byte) (i : Nat) : Nat := fld b (16 + 16 * i) 8
/-- Record i of section 0, with its payload of n bytes from section 7. -/
def knotRow (b : List Byte) (i n : Nat) : KnotRow :=
  let o := areaOff b 0 + 32 * i
  let p := fld b (o + 24) 8
  { ev := fld b o 4 % 2 ^ 20, type := fld b o 4 / 2 ^ 20, inst := fld b (o + 4) 4, sender := fld b (o + 8) 4,
    need := fld b (o + 12) 2, elapsed := fld b (o + 14) 2, stamp := fld b (o + 16) 8,
    payload := if p = 2 ^ 64 - 1 then [] else slice b p n }
/-- A stamp from its word. -/
def stampOf (w : Nat) : Stamp := { t := w / 2 ^ 16, u := w % 2 ^ 16 }
/-- A sender from its field; all ones is none. -/
def senderOf (n : Nat) : Option Nat := if n = 2 ^ 32 - 1 then none else some n
/-- The event n of those saved with its records as an area holds them. -/
def EvState.fromArea (x : EvState) (b : List Byte) (refs : List RowRef) (n time : Nat) : EvState :=
  let at_ (o : RowOf) : Nat := (refs.findIdx? (fun r => r.ev == n && r.of_ == o)).getD 0
  let el := (x.clock.map (fun t => (time - t) / 1000)).getD 0
  let act (y : Act × Nat) : Act :=
    let r := knotRow b (at_ (.message y.2)) y.1.msg.length
    { y.1 with inst := r.inst, sender := senderOf r.sender, stamp := stampOf r.stamp, msg := r.payload }
  let offer (y : Offer × Nat) : Offer :=
    let r := knotRow b (at_ (.offer y.2)) y.1.bytes.length
    { y.1 with rank := senderOf r.sender, stamp := stampOf r.stamp, bytes := r.payload }
  let first := knotRow b (at_ (if x.armed then .arming else .offer 0)) 0
  { x with
    need := if x.armed then first.need else x.need
    inst := if x.armed || !x.offers.isEmpty then first.inst else x.inst
    clock := x.clock.map (fun t => if first.elapsed = el % 2 ^ 16 then t else time - 1000 * first.elapsed)
    offers := x.offers.zipIdx.map offer
    binding := x.binding.map (fun y => { y with queue := y.queue.zipIdx.map act }) }
/-- The group table of an area. -/
def groupsFrom (b : List Byte) (gs : List Group) : List Group :=
  let o := areaOff b 1
  gs.zipIdx.map (fun g =>
    { g.1 with ranks := (List.range (fld b (o + 8 * g.2 + 4) 4)).map (fun i => fld b (o + 4 * (fld b (o + 8 * g.2) 4 + i)) 4) })
/-- A rank's counts of jobs as section 4 of an area holds them (R334). -/
def RankSt.headsFrom (k : RankSt) (b : List Byte) (i : Nat) : RankSt :=
  { k with issued := Vector.ofFn (fun (e : Fin 3) => fld b (areaOff b 4 + 192 * i + 64 * e.val + 8) 8) }
/-- The jobs that section 4 still counts: those before a queue's HEAD have finished (R334). -/
def jobsFrom (b : List Byte) (ranks : List RankSt) (jobs : List Job) : List Job :=
  jobs.filter (fun j =>
    match ranks.findIdx? (fun k => k.key == j.rank) with
    | none => true
    | some i =>
      let e := j.kind.eng
      let live := jobs.filter (fun x => x.rank == j.rank && x.kind.eng == e && x.st != .done)
      let head := (live.head?.map (fun x => x.no)).getD 0
      let gone := (fld b (areaOff b 4 + 192 * i + 64 * engIx e) 4 + engCap e - head % engCap e) % engCap e
      j.st == .done || gone ≤ (live.findIdx? (fun x => x.id == j.id)).getD 0)
/-- A text request as section 5 of an area holds it, and its reply. -/
def TextReq.fromArea (x : TextReq) (b : List Byte) (i : Nat) : TextReq :=
  let o := areaOff b 5 + 128 * i
  { x with req := fld b o 8, tok := fld b (o + 8) 2, detok := fld b (o + 10) 2, frames := x.frames.take (fld b (o + 12) 4),
           eaten := fld b (o + 16) 8, chunk := fld b (o + 24) 4 }
/-- TOGGLE and BUSY of the taps as section 6 of an area holds them. -/
def tapsFrom (b : List Byte) (taps : List (Nat × Byte × Bool)) : List (Nat × Byte × Bool) :=
  taps.zipIdx.map (fun t =>
    let o := areaOff b 6 + 16 * t.2
    (t.1.1, BitVec.ofNat 8 (fld b (o + 8) 1), bitOf (fld b (o + 9) 1) 0))
/-- A saved context with what its area holds: knot records with their stamps and payloads, group rows, descriptors,
windows and maps, job counts, text progress and taps. What an area has no field for is taken from what was kept at its save (DEDUCED, log 12). -/
def Saved.fromArea (x : Saved) (b : List Byte) : Saved :=
  let refs := x.refs
  let evs := (x.events.zipIdx.map (fun y => y.1.fromArea b refs y.2 x.time)).zipIdx.map (fun y =>
    { y.1 with desc := (descOf (slice b (areaOff b 2 + 16 * y.2) 16)).getD y.1.desc })
  let offers := evs.flatMap (fun y => y.offers)
  { x with
    ctx := { x.ctx with groups := groupsFrom b x.ctx.groups }
    ranks := x.ranks.zipIdx.map (fun k =>
      { k.1.headsFrom b k.2 with
        wins := Vector.ofFn (fun (j : Fin 8) => BitVec.ofNat 64 (fld b (areaOff b 3 + 128 * k.2 + 8 * j.val) 8))
        map := BitVec.ofNat 128 (fld b (areaOff b 3 + 128 * k.2 + 80) 16) })
    jobs := jobsFrom b x.ranks x.jobs
    texts := x.texts.zipIdx.map (fun t => t.1.fromArea b t.2)
    replies := x.replies.map (fun r => match x.texts.findIdx? (fun t => t.id == r.id) with
      | some i => { r with seq := fld b (areaOff b 5 + 128 * i + 28) 4 }
      | none => r)
    taps := tapsFrom b x.taps
    events := evs
    recs := x.recs.map (fun r => match offers.find? (fun o => o.ro = r.ro) with
      | some o => { r with stamp := o.stamp }
      | none => r) }
/-- Whether a header is that of a save area: MAGIC and VERSION (R335). -/
def areaOk (b : List Byte) : Bool := fld b 0 4 == saveMagic && fld b 4 2 == 1
/-- Number of elements of a section, from the directory. -/
def areaCount (b : List Byte) (i : Nat) : Nat := fld b (16 + 16 * i + 8) 4
/-- Bytes of an area up to the end of its last section, each element as long as R335 lets it be. -/
def areaLength (b : List Byte) : Nat :=
  ([32, 8 + 4 * 2 ^ 20, 16, 128, 192, 128, 16, 2 ^ 14].zipIdx.map (fun x => areaOff b x.2 + areaCount b x.2 * x.1)).foldl Nat.max 256
/-- What an area that another part wrote stands for, before its own fields are read: what R335 gives no field for is free,
and each section has as many elements as the directory says (DESIGN CHOICE, log 12). -/
def foreignArea (n time pa : Nat) (b : List Byte) : Saved where
  pa := pa
  ctx :=
    { id := fld b 6 1, desc := zeros 64, mctbase := Config.areaWord n 0, routbase := Config.areaWord n 1,
      uejob := (Config.areaWord n 2).toNat % 2 ^ 32, dirtybase := Config.areaWord n 3, clusters := Config.areaClusters n,
      groups := (Config.areaGroups n).take (areaCount b 1), key := none, mrv := 0, mrl := 0, nvoc := 0, nlnc := 0,
      vocab := Vector.replicate 4 [], text := Config.areaText n, queues := Vector.replicate 4 Queue.reset, quiesced := true }
  regs := { ptbase := Config.areaWord n 4, fmtbase := Config.areaWord n 5, budget := (Config.areaWord n 6).toNat,
            partition := Config.areaWord n 7, vqbase := Config.areaWord n 8 }
  ranks := (Config.areaRanks n).take (areaCount b 3)
  tasks := Config.areaTasks n
  jobs := Config.areaJobs n
  launches := Config.areaLaunches n
  events := (Config.areaEvents n).take (areaCount b 2)
  recs := Config.areaRecs n
  texts := (Config.areaTexts n).take (areaCount b 5)
  replies := Config.areaReplies n
  taps := ((Config.areaJobs n).filter (fun j => (match j.kind with | .tap _ => true | _ => false) && j.st != .done)).map
    (fun j => (j.id, 0, false))
  time := time
/-- The saved context that an area holds: one that this part saved, at this address or at another to which it was copied;
or one that another part wrote. -/
def State.savedAt (s : State) (pa : Nat) : Option Saved :=
  let b := s.mem.read pa 256
  match (s.mod.saved.filter (fun x => x.pa = pa) ++ s.mod.saved).find? (fun x => b == x.bytes.take 256) with
  | some x => some (x.fromArea (s.mem.read pa x.bytes.length))
  | none => if areaOk b then some ((foreignArea s.tick s.time pa b).fromArea (s.mem.read pa (areaLength b))) else none
/-- CTXLOAD into a number that is not allocated: the context takes the selected registers that firmware has set for it
and the partition of PARTITION, or else the saved one. -/
def State.ctxLoad (s : State) (x : Saved) (id : Nat) : State :=
  let c : Ctx := { x.ctx with id := id, queues := Vector.replicate 4 Queue.reset, quiesced := true }
  let t : State := { s with mod := { s.mod with ctxs := s.mod.ctxs ++ [c] } }
  (t.readPartition id).reload x id

/-! ## KNOTOP's purge and cancel (R224) -/

/-- Acting on every event of a context, or on one. -/
def State.onEvents (s : State) (ctx : Nat) (ev : Option Nat) (how : Ending) : State :=
  match ev with
  | some n => s.endEvent { ctx := ctx, ev := n } how
  | none => (s.mod.events.filter (fun x => x.key.ctx = ctx)).foldl (fun s x => s.endEvent x.key how) s

/-! ## Mailbox commands (R357) -/

/-- Firmware sets CTXREC. -/
def State.setCtxrec (s : State) (pa : Nat) : State :=
  s.updRun firmwareCore (fun o => { o with sup := { o.sup with ctxrec := BitVec.ofNat 64 pa } })
/-- A command that takes several steps keeps the mailbox busy and is owed again. -/
def State.again (s : State) (o : Owed) : State :=
  let t : State := { s with mod := { s.mod with mailbox := { s.mod.mailbox with busy := true } } }
  t.owe o
/-- The word that pre-empts, or resumes, every core of a context. -/
def wholeWord (ctx : Nat) (resume : Bool) : Word := BitVec.ofNat 64 (ctx % 64 + 64 + (if resume then 2 ^ 62 else 0))
/-- Whether every core of a context holds it pre-empted or has been asked to. -/
def State.allAsked (s : State) (c : Ctx) : Bool :=
  c.cores.all (fun k => (s.sched k).preempted.contains c.id || (s.sched k).asked.contains c.id)
/-- Pre-empting a context on every core, once no other request is under way. -/
def State.quiesceCores (s : State) (c : Ctx) : State :=
  if s.allAsked c || s.preemptRefused (wholeWord c.id false) then s else s.preemptWrite (wholeWord c.id false)
/-- Each core spills its resident rank's marked blocks to its save image and clears the map: the writes mark the bitmap
(R355, R357). With them go the blocks written since the image was read in (DEDUCED, log 39). -/
def State.spill (s : State) (ctx : Nat) : State :=
  ((s.residents.filter (fun k => k.ctx = ctx)).foldl (fun s k => s.spillRank k (k.map ||| k.unsaved)) s).updCtx ctx
    (fun c => { c with quiesced := true })
/-- A step of a command on a context. -/
def State.onCtx (s : State) (tag id : Nat) (k : Ctx → State) : State :=
  match s.ctx id with
  | none => s.reply tag mailBadArg []
  | some c => k c
/-- QUIESCE. -/
def execQuiesce (s : State) : Host.Outcome State Fault Refusal :=
  match s.doing with
  | some (.quiesce tag id) =>
    .next (s.command tag false (fun s => s.onCtx tag id (fun c =>
      let s := s.quiesceCores c
      if s.isQuiesced c then (s.spill id).reply tag mailOk [] else s.again (.quiesce tag id))))
  | _ => .next s
/-- SAVE: the length of the area is the result. -/
def execSave (s : State) : Host.Outcome State Fault Refusal :=
  match s.doing with
  | some (.save tag id pa) =>
    .next (s.command tag false (fun s => s.onCtx tag id (fun c =>
      if !c.quiesced || !s.isQuiesced c then s.reply tag mailDenied []
      else if pa % 4096 ≠ 0 ∨ 2 ^ 48 ≤ pa then s.reply tag mailBadArg []
      else if !s.settled id then s.again (.save tag id pa)
      else if (s.stopJobs id).stopping id then (s.stopJobs id).again (.save tag id pa)
      else
        let s := (s.setCtxrec pa).ctxSave c pa
        let n := (s.saveOf c pa).bytes.length
        (s.onEvents id none .purge).reply tag mailOk (natBytes 8 n))))
  | _ => .next s
/-- LOAD: creates a context from a descriptor and loads the area into it. -/
def execLoad (s : State) : Host.Outcome State Fault Refusal :=
  match s.doing with
  | some (.load tag pa desc) =>
    .next (s.command tag false (fun s =>
      match s.savedAt pa with
      | none => s.reply tag mailBadArg []
      | some x =>
        match s.newCtx desc with
        | (st, id, s) => if st = mailOk then ((s.setCtxrec pa).reload x id).reply tag mailOk (natBytes 8 id) else s.reply tag st []))
  | _ => .next s
/-- RESUME: a resume write with WHOLE. -/
def execResume (s : State) : Host.Outcome State Fault Refusal :=
  match s.doing with
  | some (.resume tag id) =>
    .next (s.command tag false (fun s => s.onCtx tag id (fun c =>
      if s.preemptRefused (wholeWord c.id true) then s.again (.resume tag id)
      else (s.preemptWrite (wholeWord c.id true)).reply tag mailOk [])))
  | _ => .next s

end Sys2Proof.Machine
end

