-- ==== Sys2Proof/Machine/Scalar.lean ====
section
/-! DEFINITION. Integer, predicate, control-transfer, loop and NOP instructions (R106 to R124, R127). Each instruction
has its own meaning over the shared forms below. -/

namespace Sys2Proof.Machine

/-! ## Results (R107 to R109) -/

/-- High 64 bits of a product of integers. -/
def mulHigh (x : Int) : Word := BitVec.ofInt 64 (x / 2 ^ 64)
/-- Signed quotient with its fixed results (R108). -/
def divS (a b : Word) : Word :=
  if b = 0 then 0xFFFFFFFFFFFFFFFF
  else if a = 0x8000000000000000 ∧ b = 0xFFFFFFFFFFFFFFFF then a
  else BitVec.ofInt 64 (Int.tdiv a.toInt b.toInt)
/-- Unsigned quotient (R108). -/
def divU (a b : Word) : Word := if b = 0 then 0xFFFFFFFFFFFFFFFF else BitVec.ofNat 64 (a.toNat / b.toNat)
/-- Signed remainder (R108). -/
def remS (a b : Word) : Word :=
  if b = 0 then a
  else if a = 0x8000000000000000 ∧ b = 0xFFFFFFFFFFFFFFFF then 0
  else BitVec.ofInt 64 (Int.tmod a.toInt b.toInt)
/-- Unsigned remainder (R108). -/
def remU (a b : Word) : Word := if b = 0 then a else BitVec.ofNat 64 (a.toNat % b.toNat)
/-- Number of leading zero bits among the low n bits. -/
def clzN : Nat → Nat → Nat
  | 0, _ => 0
  | n + 1, x => if bitOf x n then 0 else 1 + clzN n x
/-- Number of trailing zero bits among n bits. -/
def ctzN : Nat → Nat → Nat
  | 0, _ => 0
  | n + 1, x => if x % 2 = 1 then 0 else 1 + ctzN n (x / 2)
/-- Number of one bits among the low n bits. -/
def popN : Nat → Nat → Nat
  | 0, _ => 0
  | n + 1, x => x % 2 + popN n (x / 2)
/-- The 8 bytes in reverse order (R109). -/
def byteSwap (a : Word) : Word := BitVec.ofNat 64 (leNat (natBytes 8 a.toNat).reverse)
/-- Bit field extract (R109). -/
def bitField (a : Word) (lsb width : Nat) : Word := BitVec.ofNat 64 (a.toNat / 2 ^ lsb % 2 ^ width)
/-- Bit field insert (R109). -/
def bitInsert (d a : Word) (lsb width : Nat) : Word :=
  let mask : Word := BitVec.ofNat 64 ((2 ^ width - 1) * 2 ^ lsb)
  (d &&& ~~~mask) ||| ((a <<< lsb) &&& mask)
/-- Rotation right by a count below 64. -/
def ror64 (a : Word) (n : Nat) : Word := a.rotateRight n
def minS (a b : Word) : Word := if a.slt b then a else b
def maxS (a b : Word) : Word := if a.slt b then b else a
def minU (a b : Word) : Word := if a.ult b then a else b
def maxU (a b : Word) : Word := if a.ult b then b else a
/-- Shift count: the low 6 bits (R107). -/
def count6 (b : Word) : Nat := b.toNat % 64

/-! ## Forms -/

/-- g[d] := f g[a] g[b] (R107). -/
def alu (f : Word → Word → Word) (h : Hdr) (d a b : GReg) (s : State) : Host.Outcome State Fault Refusal :=
  scalarStep h 8 (fun s => s.setG d (f (s.g a) (s.g b))) s
/-- g[d] := f g[a] (R109). -/
def alu1 (f : Word → Word) (h : Hdr) (d a : GReg) (s : State) : Host.Outcome State Fault Refusal :=
  scalarStep h 8 (fun s => s.setG d (f (s.g a))) s
/-- g[d] := f g[a] sext(imm30, 30) (R110). -/
def alui (f : Word → Word → Word) (h : Hdr) (d a : GReg) (imm : BitVec 30) (s : State) :
    Host.Outcome State Fault Refusal :=
  scalarStep h 8 (fun s => s.setG d (f (s.g a) (imm30 imm))) s
/-- g[d] := f g[a] n for an immediate count (R110). -/
def aluShift (f : Word → Nat → Word) (h : Hdr) (d a : GReg) (n : BitVec 6) (s : State) :
    Host.Outcome State Fault Refusal :=
  scalarStep h 8 (fun s => s.setG d (f (s.g a) n.toNat)) s
/-- p[d] := f p[a] p[b] (R113). -/
def pred2 (f : Bool → Bool → Bool) (h : Hdr) (d a b : PReg) (s : State) : Host.Outcome State Fault Refusal :=
  scalarStep h 8 (fun s => s.setP d (f (s.p a) (s.p b))) s
/-- p[d] := f p[a] (R113). -/
def pred1 (f : Bool → Bool) (h : Hdr) (d a : PReg) (s : State) : Host.Outcome State Fault Refusal :=
  scalarStep h 8 (fun s => s.setP d (f (s.p a))) s
/-- Branching to a target when a condition holds; a target whose bits 1:0 are nonzero traps ALIGN here (R88, R118,
R119). -/
def branchTo (c : Bool) (target : Word) (s : State) : State :=
  if c then (if target.toNat % 4 ≠ 0 then s.trap .align target else s.jump target) else s.retire 8
/-- A branch instruction. -/
def branch (h : Hdr) (c : State → Bool) (off : BitVec 31) (s : State) : Host.Outcome State Fault Refusal :=
  checkedStep h 8 (fun s => branchTo (c s) (s.branchTarget off) s) s
/-- Link and jump (R120). -/
def linkTo (d : GReg) (target : Word) (s : State) : State :=
  if target.toNat % 4 ≠ 0 then s.trap .align target else (s.setG d (s.r.pc + 8)).jump target

/-! ## Integer instructions (R107 to R111) -/

/-- ADD (R107). -/
def execAdd (h : Hdr) (d a b : GReg) (s : State) : Host.Outcome State Fault Refusal := alu (fun a b => a + b) h d a b s

/-- SUB (R107). -/
def execSub (h : Hdr) (d a b : GReg) (s : State) : Host.Outcome State Fault Refusal := alu (fun a b => a - b) h d a b s

/-- AND (R107). -/
def execAnd (h : Hdr) (d a b : GReg) (s : State) : Host.Outcome State Fault Refusal := alu (fun a b => a &&& b) h d a b s

/-- OR (R107). -/
def execOr (h : Hdr) (d a b : GReg) (s : State) : Host.Outcome State Fault Refusal := alu (fun a b => a ||| b) h d a b s

/-- XOR (R107). -/
def execXor (h : Hdr) (d a b : GReg) (s : State) : Host.Outcome State Fault Refusal := alu (fun a b => a ^^^ b) h d a b s

/-- ANDN (R107). -/
def execAndn (h : Hdr) (d a b : GReg) (s : State) : Host.Outcome State Fault Refusal := alu (fun a b => a &&& ~~~b) h d a b s

/-- SHL (R107). -/
def execShl (h : Hdr) (d a b : GReg) (s : State) : Host.Outcome State Fault Refusal := alu (fun a b => a <<< count6 b) h d a b s

/-- SHR (R107). -/
def execShr (h : Hdr) (d a b : GReg) (s : State) : Host.Outcome State Fault Refusal := alu (fun a b => a >>> count6 b) h d a b s

/-- SAR (R107). -/
def execSar (h : Hdr) (d a b : GReg) (s : State) : Host.Outcome State Fault Refusal := alu (fun a b => a.sshiftRight (count6 b)) h d a b s

/-- ROR (R107). -/
def execRor (h : Hdr) (d a b : GReg) (s : State) : Host.Outcome State Fault Refusal := alu (fun a b => ror64 a (count6 b)) h d a b s

/-- MIN (R107). -/
def execMin (h : Hdr) (d a b : GReg) (s : State) : Host.Outcome State Fault Refusal := alu (minS) h d a b s

/-- MAX (R107). -/
def execMax (h : Hdr) (d a b : GReg) (s : State) : Host.Outcome State Fault Refusal := alu (maxS) h d a b s

/-- MINU (R107). -/
def execMinu (h : Hdr) (d a b : GReg) (s : State) : Host.Outcome State Fault Refusal := alu (minU) h d a b s

/-- MAXU (R107). -/
def execMaxu (h : Hdr) (d a b : GReg) (s : State) : Host.Outcome State Fault Refusal := alu (maxU) h d a b s

/-- MUL (R107). -/
def execMul (h : Hdr) (d a b : GReg) (s : State) : Host.Outcome State Fault Refusal := alu (fun a b => a * b) h d a b s

/-- MULH (R107). -/
def execMulh (h : Hdr) (d a b : GReg) (s : State) : Host.Outcome State Fault Refusal := alu (fun a b => mulHigh (a.toInt * b.toInt)) h d a b s

/-- MULHU (R107). -/
def execMulhu (h : Hdr) (d a b : GReg) (s : State) : Host.Outcome State Fault Refusal := alu (fun a b => mulHigh ((a.toNat * b.toNat : Nat) : Int)) h d a b s

/-- DIV (R108). -/
def execDiv (h : Hdr) (d a b : GReg) (s : State) : Host.Outcome State Fault Refusal := alu (divS) h d a b s

/-- DIVU (R108). -/
def execDivu (h : Hdr) (d a b : GReg) (s : State) : Host.Outcome State Fault Refusal := alu (divU) h d a b s

/-- REM (R108). -/
def execRem (h : Hdr) (d a b : GReg) (s : State) : Host.Outcome State Fault Refusal := alu (remS) h d a b s

/-- REMU (R108). -/
def execRemu (h : Hdr) (d a b : GReg) (s : State) : Host.Outcome State Fault Refusal := alu (remU) h d a b s

/-- ADDW (R107). -/
def execAddw (h : Hdr) (d a b : GReg) (s : State) : Host.Outcome State Fault Refusal := alu (fun a b => sextN 32 (a + b)) h d a b s

/-- SUBW (R107). -/
def execSubw (h : Hdr) (d a b : GReg) (s : State) : Host.Outcome State Fault Refusal := alu (fun a b => sextN 32 (a - b)) h d a b s

/-- MULW (R107). -/
def execMulw (h : Hdr) (d a b : GReg) (s : State) : Host.Outcome State Fault Refusal := alu (fun a b => sextN 32 (a * b)) h d a b s

/-- CLZ (R109). -/
def execClz (h : Hdr) (d a : GReg) (s : State) : Host.Outcome State Fault Refusal := alu1 (fun a => BitVec.ofNat 64 (clzN 64 a.toNat)) h d a s

/-- CTZ (R109). -/
def execCtz (h : Hdr) (d a : GReg) (s : State) : Host.Outcome State Fault Refusal := alu1 (fun a => BitVec.ofNat 64 (ctzN 64 a.toNat)) h d a s

/-- POPC (R109). -/
def execPopc (h : Hdr) (d a : GReg) (s : State) : Host.Outcome State Fault Refusal := alu1 (fun a => BitVec.ofNat 64 (popN 64 a.toNat)) h d a s

/-- BSWAP (R109). -/
def execBswap (h : Hdr) (d a : GReg) (s : State) : Host.Outcome State Fault Refusal := alu1 (byteSwap) h d a s

/-- SEXT (R109). -/
def execSext (h : Hdr) (d a : GReg) (n : BitVec 7) (s : State) : Host.Outcome State Fault Refusal :=
  alu1 (sextN n.toNat) h d a s
/-- ZEXT (R109). -/
def execZext (h : Hdr) (d a : GReg) (n : BitVec 7) (s : State) : Host.Outcome State Fault Refusal :=
  alu1 (zextN n.toNat) h d a s
/-- BFX (R109). -/
def execBfx (h : Hdr) (d a : GReg) (lsb : BitVec 6) (width : BitVec 7) (s : State) : Host.Outcome State Fault Refusal :=
  alu1 (fun a => bitField a lsb.toNat width.toNat) h d a s
/-- BFI reads its destination as a source (R109). -/
def execBfi (h : Hdr) (d a : GReg) (lsb : BitVec 6) (width : BitVec 7) (s : State) : Host.Outcome State Fault Refusal :=
  scalarStep h 8 (fun s => s.setG d (bitInsert (s.g d) (s.g a) lsb.toNat width.toNat)) s

/-- ADDI (R110). -/
def execAddi (h : Hdr) (d a : GReg) (imm : BitVec 30) (s : State) : Host.Outcome State Fault Refusal :=
  alui (fun a b => a + b) h d a imm s

/-- ANDI (R110). -/
def execAndi (h : Hdr) (d a : GReg) (imm : BitVec 30) (s : State) : Host.Outcome State Fault Refusal :=
  alui (fun a b => a &&& b) h d a imm s

/-- ORI (R110). -/
def execOri (h : Hdr) (d a : GReg) (imm : BitVec 30) (s : State) : Host.Outcome State Fault Refusal :=
  alui (fun a b => a ||| b) h d a imm s

/-- XORI (R110). -/
def execXori (h : Hdr) (d a : GReg) (imm : BitVec 30) (s : State) : Host.Outcome State Fault Refusal :=
  alui (fun a b => a ^^^ b) h d a imm s

/-- MINI (R110). -/
def execMini (h : Hdr) (d a : GReg) (imm : BitVec 30) (s : State) : Host.Outcome State Fault Refusal :=
  alui (minS) h d a imm s

/-- MAXI (R110). -/
def execMaxi (h : Hdr) (d a : GReg) (imm : BitVec 30) (s : State) : Host.Outcome State Fault Refusal :=
  alui (maxS) h d a imm s

/-- ADDWI (R110). -/
def execAddwi (h : Hdr) (d a : GReg) (imm : BitVec 30) (s : State) : Host.Outcome State Fault Refusal :=
  alui (fun a b => sextN 32 (a + b)) h d a imm s

/-- SHLI (R110). -/
def execShli (h : Hdr) (d a : GReg) (n : BitVec 6) (s : State) : Host.Outcome State Fault Refusal :=
  aluShift (fun a n => a <<< n) h d a n s

/-- SHRI (R110). -/
def execShri (h : Hdr) (d a : GReg) (n : BitVec 6) (s : State) : Host.Outcome State Fault Refusal :=
  aluShift (fun a n => a >>> n) h d a n s

/-- SARI (R110). -/
def execSari (h : Hdr) (d a : GReg) (n : BitVec 6) (s : State) : Host.Outcome State Fault Refusal :=
  aluShift (fun a n => a.sshiftRight n) h d a n s

/-- RORI (R110). -/
def execRori (h : Hdr) (d a : GReg) (n : BitVec 6) (s : State) : Host.Outcome State Fault Refusal :=
  aluShift (ror64) h d a n s

/-- MOVL (R111). -/
def execMovl (h : Hdr) (d : GReg) (lit : BitVec 64) (s : State) : Host.Outcome State Fault Refusal :=
  scalarStep h 16 (fun s => s.setG d lit) s
/-- PCREL (R111). -/
def execPcrel (h : Hdr) (d : GReg) (off : BitVec 32) (s : State) : Host.Outcome State Fault Refusal :=
  scalarStep h 12 (fun s => s.setG d (s.r.pc + off32 off)) s

/-! ## Predicates (R112 to R114) -/

/-- CMP (R112). -/
def execCmp (h : Hdr) (cond : Cond) (d : PReg) (a b : GReg) (s : State) : Host.Outcome State Fault Refusal :=
  scalarStep h 8 (fun s => s.setP d (cond.holds (s.g a) (s.g b))) s
/-- CMPI (R112). -/
def execCmpi (h : Hdr) (cond : Cond) (d : PReg) (a : GReg) (imm : BitVec 30) (s : State) :
    Host.Outcome State Fault Refusal :=
  scalarStep h 8 (fun s => s.setP d (cond.holds (s.g a) (imm30 imm))) s

/-- PAND (R113). -/
def execPand (h : Hdr) (d a b : PReg) (s : State) : Host.Outcome State Fault Refusal := pred2 (fun x y => x && y) h d a b s

/-- POR (R113). -/
def execPor (h : Hdr) (d a b : PReg) (s : State) : Host.Outcome State Fault Refusal := pred2 (fun x y => x || y) h d a b s

/-- PXOR (R113). -/
def execPxor (h : Hdr) (d a b : PReg) (s : State) : Host.Outcome State Fault Refusal := pred2 (xor) h d a b s

/-- PANDN (R113). -/
def execPandn (h : Hdr) (d a b : PReg) (s : State) : Host.Outcome State Fault Refusal := pred2 (fun x y => x && !y) h d a b s

/-- PNOT (R113). -/
def execPnot (h : Hdr) (d a : PReg) (s : State) : Host.Outcome State Fault Refusal := pred1 (fun x => !x) h d a s
/-- PMOV (R113). -/
def execPmov (h : Hdr) (d a : PReg) (s : State) : Host.Outcome State Fault Refusal := pred1 (fun x => x) h d a s
/-- PSET (R113). -/
def execPset (h : Hdr) (d : PReg) (v : BitVec 1) (s : State) : Host.Outcome State Fault Refusal :=
  scalarStep h 8 (fun s => s.setP d (v == 1)) s
/-- SEL (R114). -/
def execSel (h : Hdr) (d : GReg) (c : PReg) (a b : GReg) (s : State) : Host.Outcome State Fault Refusal :=
  scalarStep h 8 (fun s => s.setG d (if s.p c then s.g a else s.g b)) s

/-! ## Transfer of control (R118 to R120) -/

/-- B (R118). -/
def execB (h : Hdr) (cond : Cond) (a b : GReg) (off : BitVec 31) (s : State) : Host.Outcome State Fault Refusal :=
  branch h (fun s => cond.holds (s.g a) (s.g b)) off s
/-- BP (R119). -/
def execBp (h : Hdr) (neg : BitVec 1) (a : PReg) (off : BitVec 31) (s : State) : Host.Outcome State Fault Refusal :=
  branch h (fun s => xor (s.p a) (neg == 1)) off s
/-- JMP (R119). -/
def execJmp (h : Hdr) (off : BitVec 31) (s : State) : Host.Outcome State Fault Refusal := branch h (fun _ => true) off s
/-- JAL (R120). -/
def execJal (h : Hdr) (d : GReg) (imm : BitVec 30) (s : State) : Host.Outcome State Fault Refusal :=
  checkedStep h 8 (fun s => linkTo d (s.r.pc + 4 * imm30 imm) s) s
/-- JALR: g[a] is read before g[d] is written (R120). -/
def execJalr (h : Hdr) (d a : GReg) (imm : BitVec 30) (s : State) : Host.Outcome State Fault Refusal :=
  checkedStep h 8 (fun s => linkTo d (s.g a + imm30 imm) s) s

/-! ## Hardware loops (R121, R124) -/

/-- Setting up a counter and entering or skipping the body (R121). -/
def State.setLoop (s : State) (i : Fin 2) (n : Word) (off : BitVec 32) : State :=
  let e := s.r.pc + 4 * off32 off
  let st := s.r.pc + 12
  if 0xFFFFFFFF < n.toNat then s.trap .illegal
  else if off.toInt < 3 then s.trap .illegal
  else
    let l : Lc := { count := n.setWidth 32, reload := n.setWidth 32, s := st, e := e }
    let t := { s with r := { s.r with lc := s.r.lc.set i l } }
    if n = 0 then
      match s.fetchLen e with
      | .trap t => s.accessTrap t s.r.pc
      | .len k => t.jump (e + BitVec.ofNat 64 k)
    else t.jump st
/-- LOOP (R121); at the end of an active counter it traps ILLEGAL whatever the qualifier (R124). -/
def execLoop (h : Hdr) (lc : BitVec 1) (src : LoopSrc) (off : BitVec 32) (s : State) :
    Host.Outcome State Fault Refusal :=
  if s.atLoopEnd then .next (s.trap .illegal)
  else checkedStep h 12 (fun s =>
    s.setLoop (if lc = 1 then 1 else 0) (match src with | .reg a => s.g a | .imm n => n.setWidth 64) off) s

/-! ## NOP (R127) -/

/-- NOP of 8 bytes (R127). -/
def execNop (s : State) : Host.Outcome State Fault Refusal := .next (s.retire 8)
/-- NOP of 12 bytes (R127). -/
def execNopX (s : State) : Host.Outcome State Fault Refusal := .next (s.retire 12)
/-- NOP of 16 bytes (R127). -/
def execNopL (s : State) : Host.Outcome State Fault Refusal := .next (s.retire 16)
/-- An unassigned opcode, or LEN 11: ILLEGAL at every length and in every mode (R99). -/
def execUnassignedOpcode (s : State) : Host.Outcome State Fault Refusal := .next (s.trap .illegal)

end Sys2Proof.Machine
end

