-- ==== Sys2Proof/Machine/Fleet.lean ====
section
/-! DEFINITION. Dirty tracking and its harvest (R353 to R357), the whole-memory checkpoint (R360), host accesses to device
memory (R297), grafts, stages and the fabric (R321 to R324), and the failure of a core (R257). -/

namespace Sys2Proof.Machine

/-! ## Leaf entries of a context (R336) -/

/-- Whether a leaf covers a 64 KiB page of physical memory. -/
def leafCovers (e page : Nat) : Bool :=
  if leafS e then bits e 47 25 == page / 512 else bits e 47 16 == page
/-- Pages of a failed peer that no context maps any more no longer trap (R271). -/
def State.dropLost (s : State) : State :=
  if s.mod.lostPages.isEmpty then s else
  { s with mod := { s.mod with lostPages := s.mod.lostPages.filter (fun g =>
    s.mod.ctxs.any (fun c => (s.leaves c.id).any (fun x => leafCovers x.2 g))) } }
/-- Clearing D in the leaf entries that p selects (R356, R357). -/
def State.clearD (s : State) (ctx : Nat) (p : Nat → Bool) : State :=
  (s.leaves ctx).foldl (fun (s : State) x =>
    if leafD x.2 && p x.2 then { s with mem := s.mem.write x.1 (natBytes 8 (x.2 - 2 ^ 11)) } else s) s

/-! ## Accesses that old translations still serve (R222) -/

/-- The entries that an invalidation matches: all, those of a context, or those of one whose pages hold an address; `page` is
the address and the size of its page. -/
structure XlMatch where
  ctx : Option Nat
  page : Option (Nat × Nat)
  deriving DecidableEq, Repr
/-- Whether it matches the entry that translated some byte of a range. -/
def XlMatch.hits (m : XlMatch) (ctx va n : Nat) : Bool :=
  (m.ctx.map (fun c => c == ctx)).getD true &&
    (m.page.map (fun p => decide (va / p.2 ≤ p.1 / p.2) && decide (p.1 / p.2 ≤ (va + n - 1) / p.2))).getD true
/-- Bytes that a posted access covers. -/
def FlightOp.width : FlightOp → Nat
  | .store bs => bs.length
  | .load _ _ pas => pas.length
  | .amo _ _ _ _ pas => pas.length
  | .cas _ _ _ _ pas => pas.length
/-- A core still has an access on its way that such an entry translated, or work that it translated already: a held command,
or a line of the combining buffer. -/
def Run.translated (r : Run) (m : XlMatch) : Bool :=
  (r.kind != .root && r.flight.any (fun f => !f.performed && m.hits (bits f.by_.src.toNat 9 4) f.va.toNat (FlightOp.width f.op))) ||
    (r.on && r.kind != .root &&
      (r.held.any (fun e => e.cmd.pages.any (fun p => m.hits r.ctx p.1.toNat p.2.1)) ||
        r.comb.any (fun l => m.hits r.ctx l.va.toNat 64)))
/-- Some core does. -/
def State.translated (s : State) (m : XlMatch) : Bool :=
  s.run.translated m || s.mod.others.any (fun e => e.run.translated m)

/-! ## Dirty tracking (R356, R357) -/

/-- Ranks of a context. -/
def State.ranksOf (s : State) (ctx : Nat) : List RankSt := s.allRanks.filter (fun k => k.ctx = ctx)
/-- Every rank's scratchpad map cleared. -/
def State.clearMaps (s : State) (ctx : Nat) : State :=
  (s.ranksOf ctx).foldl (fun s k => s.updRank k.key (fun k => { k with map := 0 })) s
/-- TRACK_START. -/
def execTrackStart (s : State) : Host.Outcome State Fault Refusal :=
  match s.doing with
  | some (.trackStart tag id) =>
    .next (s.command tag false (fun s => s.onCtx tag id (fun c =>
      if s.translated { ctx := some id, page := none } then s.again (.trackStart tag id)
      else
        let s := s.clearD id (fun _ => true)
        let b := c.dirtybase.toNat
        let s : State := { s with mem := s.mem.clear b (b + bitmapBytes) }
        ((s.invalidateCtx id).clearMaps id).reply tag mailOk [])))
  | _ => .next s
/-- Whether a snapshot has the bit of a page that a leaf entry maps. -/
def inSnapshot (snap : Memory) (e : Nat) : Bool :=
  if leafS e then (List.range 64).any (fun i => snap.get (bits e 47 25 * 64 + i) != 0)
  else bitOf (snap.get (bits e 47 16 / 8)).toNat (bits e 47 16 % 8)
/-- One bits of a memory. -/
def Memory.ones (m : Memory) : Nat := m.foldl (fun n c => n + popN 8 c.2.toNat) 0
/-- A range copied onto another, which is cleared first. -/
def Memory.copyRange (m : Memory) (lo n to_ : Nat) : Memory := (m.clear to_ (to_ + n)).writeAt (m.moved lo n to_)
/-- HARVEST (R356). -/
def State.harvest (s : State) (c : Ctx) (pa : Nat) : Nat × State :=
  let b := c.dirtybase.toNat
  let snap : Memory := Memory.writeAt [] (s.mem.moved b bitmapBytes 0)
  let s : State := { s with mem := (s.mem.copyRange b bitmapBytes (hostAddr pa)).clear b (b + bitmapBytes) }
  (snap.ones, (s.clearD c.id (inSnapshot snap)).invalidateCtx c.id)
/-- The set bits of every rank's scratchpad map. -/
def State.mapBits (s : State) (ctx : Nat) : Nat := (s.ranksOf ctx).foldl (fun n k => n + popN 128 ((s.getRank k.key).getD k).map.toNat) 0
/-- HARVEST: it answers once no access translated before is on its way. -/
def execHarvest (s : State) : Host.Outcome State Fault Refusal :=
  match s.doing with
  | some (.harvest tag id pa) =>
    .next (s.command tag false (fun s => s.onCtx tag id (fun c =>
      if s.translated { ctx := some id, page := none } then s.again (.harvest tag id pa)
      else
        let (n, s) := s.harvest c pa
        s.reply tag mailOk (natBytes 8 n ++ natBytes 8 (s.mapBits id)))))
  | _ => .next s

/-! ## Whole-memory checkpoint (R360) -/

/-- MAGIC of a checkpoint image. -/
def ckptMagic : Nat := 0x54504B43
/-- Offset of the save areas in an image: after the header, 256 GiB of vaults and 16 GiB of scratchpads. -/
def ckptAreas : Nat := 4096 + 2 ^ 38 + 2 ^ 34
/-- The contexts as they would be saved, each with the offset of its area; each area is followed by its descriptor. -/
def placeAreas : List Saved → Nat → List (Saved × Nat)
  | [], _ => []
  | x :: xs, off => (x, off) :: placeAreas xs (off + (pad16 x.bytes).length + 64)
/-- Bytes of an image. -/
def ckptSize (xs : List Saved) : Nat := xs.foldl (fun n x => n + (pad16 x.bytes).length + 64) ckptAreas
/-- The header of an image. -/
def ckptHeader (time pa : Nat) (xs : List (Saved × Nat)) : List Byte :=
  padTo 64 (natBytes 4 ckptMagic ++ natBytes 2 1 ++ zeros 2 ++ natBytes 8 time) ++
    (List.range 64).flatMap (fun n =>
      match xs.find? (fun x => x.1.ctx.id = n) with
      | some (x, off) =>
        natBytes 8 off ++ natBytes 8 x.bytes.length ++ natBytes 8 (pa + off + (pad16 x.bytes).length) ++ zeros 8
      | none => zeros 32)
/-- The buffers of a core at their place in an image, core by core in the order W, A, C. -/
def coreImage (core : Nat) (k : RankSt) (base : Nat) : List (Nat × Byte) :=
  let at_ := base + 4096 + 2 ^ 38 + core * 2 ^ 19
  k.w.moved 0 (2 ^ 18) at_ ++ k.a.moved 0 (2 ^ 17) (at_ + 2 ^ 18) ++ k.c.moved 0 (2 ^ 17) (at_ + 2 ^ 18 + 2 ^ 17)
/-- Writing an image to host memory, every context being quiesced.
(DEDUCED, log 30). -/
def State.writeCkpt (s : State) (pa : Nat) : State :=
  let s := s.mod.ctxs.foldl (fun s c => (s.stopJobs c.id).spill c.id) s
  let areas := placeAreas (s.mod.ctxs.map (fun c => s.saveOf c 0)) ckptAreas
  let h := hostAddr pa
  let s := areas.foldl (fun s x => s.setCtxrec (h + x.2)) s
  let mem := s.mem.clear h (h + ckptSize (areas.map (fun x => x.1)))
  let mem := (mem.write h (ckptHeader s.time pa areas)).writeAt (s.mem.moved 0 (2 ^ 38) (h + 4096))
  let mem := s.mod.others.foldl (fun (m : Memory) e => if e.core < 0x8000 then m.writeAt (coreImage e.core e.rank h) else m)
    (if s.core < 0x8000 then mem.writeAt (coreImage s.core s.rank h) else mem)
  let mem := areas.foldl (fun (m : Memory) x =>
    (m.write (h + x.2) x.1.bytes).write (h + x.2 + (pad16 x.1.bytes).length) x.1.ctx.desc) mem
  { s with
    mem := mem
    mod := { s.mod with saved := areas.map (fun x => { x.1 with pa := h + x.2 }) ++
        s.mod.saved.filter (fun y => !areas.any (fun x => y.pa == h + x.2)) } }
/-- A context still to quiesce. -/
def State.firstActive (s : State) : Option Ctx := s.mod.ctxs.find? (fun c => !c.quiesced || !s.isQuiesced c || !s.settled c.id)
/-- Each quiesced context spills. -/
def State.spillQuiet (s : State) : State := s.mod.ctxs.foldl (fun s c => if s.isQuiesced c then s.spill c.id else s) s
/-- Resuming a context on all its cores. -/
def State.resumeAll (s : State) (c : Ctx) : State := s.preemptWrite (wholeWord c.id true)
/-- Every context is quiesced: its jobs stop, each at the end of its row or step. -/
def State.stopAll (s : State) : State := s.mod.ctxs.foldl (fun s c => s.stopJobs c.id) s
/-- CKPT. A length below the image size is refused before anything is quiesced, and not looked at again: the command goes
on with a length that no image reaches. -/
def execCkpt (s : State) : Host.Outcome State Fault Refusal :=
  match s.doing with
  | some (.ckpt tag pa len hold) =>
    .next (s.command tag false (fun s =>
      if len < ckptSize (s.mod.ctxs.map (fun c => s.saveOf c 0)) then s.reply tag mailBadArg []
      else
        let s := s.spillQuiet
        match s.firstActive with
        | some c => (s.quiesceCores c).again (.ckpt tag pa (2 ^ 64) hold)
        | none =>
          let s := s.stopAll
          if s.mod.ctxs.any (fun c => s.stopping c.id) then s.again (.ckpt tag pa (2 ^ 64) hold) else
          let s := s.writeCkpt pa
          let s := if hold then s else s.mod.ctxs.foldl State.resumeAll s
          s.reply tag mailOk []))
  | _ => .next s
/-- The areas that an image in host memory lists, as the part saved them: context number, area. Of the header MAGIC and
VERSION are checked; the 8 reserved bytes of an entry are not looked at (DESIGN CHOICE, log 41). -/
def State.ckptAreasAt (s : State) (pa : Nat) : Option (List (Nat × Saved)) :=
  let h := hostAddr pa
  let b := s.mem.read h 4096
  if fld b 0 4 ≠ ckptMagic ∨ fld b 4 2 ≠ 1 then none else
  ((List.range 64).filter (fun n => fld b (64 + 32 * n + 8) 8 != 0)).mapM (fun n =>
    (s.savedAt (h + fld b (64 + 32 * n) 8)).map (fun x => (n, x)))
/-- CKPT_LOAD: the vaults are restored and every context of the image is rebuilt, left quiesced. -/
def State.loadCkpt (s : State) (pa : Nat) (xs : List (Nat × Saved)) : State :=
  let h := hostAddr pa
  let s : State := { s with mem := s.mem.copyRange (h + 4096) (2 ^ 38) 0 }
  let s := s.invalidateAll
  xs.foldl (fun s x =>
    let s := s.updCtxRegs x.1 (fun _ => x.2.regs)
    s.ctxLoad x.2 x.1) s
/-- CKPT_LOAD. -/
def execCkptLoad (s : State) : Host.Outcome State Fault Refusal :=
  match s.doing with
  | some (.ckptLoad tag pa len) =>
    .next (s.command tag false (fun s =>
      if !s.mod.ctxs.isEmpty then s.reply tag mailDenied []
      else match s.ckptAreasAt pa with
        | none => s.reply tag mailBadArg []
        | some xs =>
          if len < ckptSize (xs.map (fun x => x.2)) then s.reply tag mailBadArg []
          else (s.loadCkpt pa xs).reply tag mailOk []))
  | _ => .next s

/-! ## Host accesses to device memory (R297, R353) -/

/-- The context to which a page is allocated, with the leaf that covers it: the one whose tables map it, of several the
oldest (DESIGN CHOICE, log 31). -/
def State.pageOwner (s : State) (page : Nat) : Option (Nat × Nat) :=
  s.mod.ctxs.findSome? (fun c => ((s.leaves c.id).find? (fun x => leafCovers x.2 page)).map (fun x => (c.id, x.2)))
/-- A page written by the host is marked in the bitmap of the context to which it is allocated, all 512 bits of a 32 MiB
page at once (R353). -/
def State.hostMark (s : State) (page : Nat) : State :=
  match s.pageOwner page with
  | some (ctx, e) => s.markDirty ctx e (page * 65536)
  | none => s
/-- CXL_MEM_WRITE: performed at the vault; addresses outside the decoder's window are not the part's. -/
def execCxlMemWrite (s : State) : Host.Outcome State Fault Refusal :=
  match s.doing with
  | some (.cxlMemWrite pa bs) =>
    .next (if bs.isEmpty ∨ vaultTop < pa + bs.length then s
      else ((List.range ((pa + bs.length - 1) / 65536 - pa / 65536 + 1)).foldl (fun s i => s.hostMark (pa / 65536 + i)) s).physWrite pa bs)
  | _ => .next s
/-- CXL_MEM_READ, and any other read that the host makes in a BAR (R298). -/
def execCxlMemRead (s : State) : Host.Outcome State Fault Refusal :=
  match s.doing with
  | some (.cxlMemRead pa n) =>
    .next (if vaultTop < pa + n then s
      else { s with mod := { s.mod with outs := s.mod.outs ++ [.hostData (s.mem.read pa n)] } })
  | some (.barRead bar off n) =>
    .next { s with mod := { s.mod with outs := s.mod.outs ++ [.hostData (s.barRead bar off n)] } }
  | _ => .next s

/-! ## Grafts and the placement generation (R252, R321) -/

/-- Tasks of a rank bound to a core. -/
def State.boundTo (s : State) (rk : RankKey) (core : Nat) : List Task :=
  s.mod.tasks.filter (fun t => t.rank = rk && t.core = core && !t.visitor)
/-- Whether a rank may move to a core: it has no running segment, and the core is one that placement may bind it to. -/
def State.graftOk (s : State) (k : RankSt) (core : Nat) : Bool :=
  let gang := ((s.launch k.key.launch).map (fun l => l.decl.tcb.gang)).getD false
  !s.mod.tasks.any (fun t => t.rank == k.key && t.st == .running) && s.inPartition k.ctx core && k.core != core &&
    !(s.sched core).failed && (!gang || core % 4 == 0) &&
    (s.allRanks.filter (fun x => x.core = core)).length < ranksPerCore
/-- The rank's image leaves its old core. -/
def State.unseat (s : State) (rk : RankKey) : State :=
  match s.getRank rk with
  | none => s
  | some k =>
    let out (x : RankSt) (r : Run) : RankSt := if homeOf rk x r then noRank else x
    let t : State := { s with
      rank := out s.rank s.run
      mod := { s.mod with others := s.mod.others.map (fun e => { e with rank := out e.rank e.run }) } }
    t.putRank k k.unsaved
/-- A rank is bound to a core: its state and its save image lie there from now on (R252, R333). -/
def State.rebind (s : State) (rk : RankKey) (core : Nat) : State :=
  match s.getRank rk with
  | none => s
  | some k => s.placeRank { k with core := core, gen := s.mod.generation }
/-- One task moves with its rank, its record to the new core's area: a waiting one has its offers withdrawn, one whose offers
a pre-emption withdrew offers again where the new core does not hold its context pre-empted, the others keep their order. -/
def State.moveTask (s : State) (core : Nat) (t : Task) (old : Option Nat) : State :=
  let s := (s.updTask t.id (fun t => { t with core := core })).reslot t.id old
  match t.st with
  | .ready _ => s.makeReady t.id
  | .deque _ =>
    let c := s.sched core
    let s := (s.setSched { c with dq := c.dq + 1 }).updTask t.id (fun t => { t with st := .deque c.dq })
    if t.tcb.migrate then s.callThieves t.ctx core else s
  | .parked => if (s.sched core).preempted.contains t.ctx then s else s.wake t.id
  | .waiting _ => s.withdrawTask { t with core := core }
  | _ => s
/-- The order in which tasks move: ready ones by ready sequence, spawned ones from the oldest. -/
def Task.moveKey (t : Task) : Nat :=
  match t.st with
  | .ready n => n
  | .deque n => n
  | _ => 0
/-- COLLSTART offers of a rank that moves are withdrawn, to be made again from the new core, at once where a pre-emption of
the old one had withdrawn them (R252, R259). -/
def State.moveColls (s : State) (rk : RankKey) (old new : Nat) : State :=
  let mine (r : Rec) : Bool := (s.collOffers old (fun k => k == rk)).any (fun x => x.ro == r.ro)
  let s := s.withdrawColls old (fun k => k == rk)
  let moved : Owner → Owner
    | .coll t _ pc seq j => .coll t new pc seq j
    | o => o
  let parked := (s.mod.recs.filter (fun r => mine r && r.state == .parked && !(s.sched new).preempted.any (fun c =>
    r.alts.any (fun a => a.e.ctx == c)))).map (fun r => r.ro)
  let s : State := { s with mod := { s.mod with recs := updWhere mine (fun r => { r with owner := moved r.owner }) s.mod.recs } }
  parked.foldl (fun s ro => s.reoffer ro new) s
/-- A graft: the events whose members it takes off their die are homed again (R238). -/
def State.graft (s : State) (rk : RankKey) (core : Nat) : State :=
  match s.getRank rk with
  | none => s
  | some k =>
    if !s.graftOk k core then s else
    let ts := sortBy (fun a b => decide (a.moveKey ≤ b.moveKey)) (s.boundTo rk k.core)
    let ts := ts.map (fun t => (t, s.recordAt t))
    let s := (s.unseat rk).rebind rk core
    let f : Forward := { rank := rk, core := k.core, gen := s.mod.generation }
    let s : State := { s with mod := { s.mod with forwards := s.mod.forwards ++ [f] } }
    let s := (ts.foldl (fun s t => s.moveTask core t.1 t.2) s).moveColls rk k.core core
    let s := (s.eventsOf rk.launch).foldl (fun s x => s.rehome x.key) s
    (s.oweOnce (.taskDispatch core)).oweOnce (.taskDispatch k.core)
/-- GRAFT. -/
def execGraft (s : State) : Host.Outcome State Fault Refusal :=
  match s.doing with
  | some (.graft rk core) => if core < 0x8000 then .next (s.graft rk core) else .fault .noSuchUnit
  | _ => .next s
/-- Key under which the time of the last generation is kept beside the units' stamps. -/
def generationKey : Nat := 0x20000
/-- Advancing the placement generation: a forwarding entry ends when it has advanced twice. -/
def State.nextGeneration (s : State) : State :=
  let last := (s.mod.stamps.find? (fun x => x.1 = generationKey)).map (fun x => x.2)
  let now := Nat.max s.time ((last.map (fun t => t + 10000)).getD 0)
  let g := s.mod.generation + 1
  { s with
    time := now
    mod := { s.mod with
      generation := g
      forwards := s.mod.forwards.filter (fun f => g < f.gen + 2)
      stamps := (generationKey, now) :: s.mod.stamps.filter (fun x => x.1 ≠ generationKey) } }
/-- PLACEMENT_GENERATION: at most once per 10 µs. -/
def execPlacementGeneration (s : State) : Host.Outcome State Fault Refusal :=
  match s.doing with
  | some .placementGeneration => .next s.nextGeneration
  | _ => .next s

/-! ## Stages (R322) -/

/-- Activations that a binding holds. -/
def Binding.occupied (b : Binding) : Nat := b.queue.length + b.running.length
/-- A stage is above 3/4 of its depth. -/
def Binding.crowded (b : Binding) : Bool := 3 * b.depth < 4 * b.occupied
/-- Cores of a stage that may be told to leave it: none that moved in the last 50 µs, or that is to leave already; first those
that run no activation of it.
(DEDUCED, log 27). -/
def State.movable (s : State) (b : Binding) (g : Stage) : List (StageCore × Bool) :=
  let ok := g.cores.filter (fun c => c.joins.isNone && (c.since.map (fun t => decide (t + 50000 ≤ s.time))).getD true)
  let busy (c : StageCore) : Bool :=
    s.mod.tasks.any (fun t => t.core == c.core && (t.act.map (fun a => b.running.contains a)).getD false)
  (ok.filter (fun c => !busy c)).map (fun c => (c, false)) ++ (ok.filter busy).map (fun c => (c, true))
/-- Cores that a stage keeps. -/
def Stage.staying (g : Stage) : Nat := (g.cores.filter (fun c => c.joins.isNone)).length
/-- Cores that are to join a stage. -/
def State.coming (s : State) (e : EvKey) : Nat :=
  s.mod.events.foldl (fun n x => match x.binding.bind (fun b => b.stage) with
    | some g => n + (g.cores.filter (fun c => c.joins = some e)).length
    | none => n) 0
/-- The stage that gives a core: the least occupied of the context that holds more than its MIN, the smaller name on
ties. -/
def State.donor (s : State) (e : EvKey) : Option EvKey :=
  let ok (x : EvState) : Option (Nat × EvKey) :=
    match x.binding with
    | some b =>
      match b.stage with
      | some g =>
        if x.key.ctx = e.ctx ∧ x.key ≠ e ∧ g.min < g.staying then some (b.occupied, x.key) else none
      | none => none
    | none => none
  let cands := s.mod.events.filterMap ok
  (cands.find? (fun x => cands.all (fun y => x.1 < y.1 || (x.1 == y.1 && x.2.ev ≤ y.2.ev)))).map (fun x => x.2)
/-- A core moves from one stage to another: at once, or once its activation's END has committed. -/
def State.moveCore (s : State) (src dst : EvKey) : State :=
  match (s.ev src).bind (fun x => x.binding) with
  | none => s
  | some d =>
    match (d.stage.map (s.movable d)).getD [] with
    | [] => s
    | (c, false) :: _ => s.joinStage src dst c.core
    | (c, true) :: _ => s.setStage src (fun g =>
        { g with cores := updWhere (fun x => x.core = c.core) (fun x => { x with joins := some dst }) g.cores })
/-- The evaluation of one binding. -/
def State.evalStage (s : State) (e : EvKey) : State :=
  match (s.ev e).bind (fun x => x.binding) with
  | none => s
  | some b =>
    match b.stage with
    | none => s
    | some g =>
      let high := if b.crowded then g.high + 1 else 0
      let s := s.setStage e (fun g => { g with high := high })
      if high < 2 ∨ g.max ≤ g.staying + s.coming e then s
      else match s.donor e with
        | some d => s.moveCore d e
        | none => s
/-- The stages whose binding rank lies on a die. -/
def State.stagesOn (s : State) (die : Nat) : List EvKey :=
  (s.mod.events.filter (fun x => x.binding.any (fun b => b.stage.isSome && s.coreOf b.rank / 8192 == die))).map (fun x => x.key)
/-- When a die's scheduler is to evaluate its stages again (R322). -/
def State.nextEval (s : State) (die : Nat) : Nat := ((s.mod.evals.find? (fun x => x.1 = die)).map (fun x => x.2 + 10000)).getD 0
/-- STAGE_EVALUATION: a die's scheduler evaluates its stages, every 10 µs (R322). -/
def execStageEvaluation (s : State) : Host.Outcome State Fault Refusal :=
  match s.doing with
  | some (.stageEvaluation die) =>
    if die < 4 then
      let now := Nat.max s.time (s.nextEval die)
      let t : State := { s with time := now, mod := { s.mod with evals := (die, now) :: s.mod.evals.filter (fun x => x.1 ≠ die) } }
      .next ((s.stagesOn die).foldl (fun s e => s.evalStage e) t)
    else .fault .noSuchUnit
  | _ => .next s

/-! ## The fabric (R323, R324) -/

/-- The core of a global access on its way that bears a number. -/
def State.flightCore (s : State) (id : Nat) : Option Nat :=
  let has (r : Run) : Bool := r.flight.any (fun f => f.id = id)
  if has s.run then some s.core else (s.mod.others.find? (fun e => has e.run)).map (fun e => e.core)
/-- The unit that made a record (R241). -/
def State.recUnit (s : State) (ro : Nat) : Nat := ((s.recOf ro).map (fun r => r.stamp.u)).getD 0
/-- The source and traffic class of a message (R323). -/
def State.packetOf (s : State) : Owed → Option (Nat × TrafficClass)
  | .offer ro _ => some (s.recUnit ro, .tc0)
  | .grant _ ro => some (s.recUnit ro, .tc0)
  | .revoke _ ro => some (s.recUnit ro, .tc0)
  | .refuse _ ro => some (s.recUnit ro, .tc0)
  | .withdraw _ ro => some (s.recUnit ro, .tc0)
  | .claim _ e _ => some (knotUnit (s.knotOf e), .tc0)
  | .released _ e => some (knotUnit (s.knotOf e), .tc0)
  | .release _ e => some (knotUnit (s.knotOf e), .tc0)
  | .commit c => some (knotUnit (s.knotOf c.e), .tc0)
  | .tilePayload c => some (knotUnit (s.knotOf c.e), .tc2)
  | .remoteRequest q => some (q.src.core, .tc1)
  | .remoteReply p => some (s.coreOf p.req.tgt, .tc1)
  | .copyJob j => (s.job j).map (fun x => (copyUnit (clusterOf x.core), .tc2))
  | .collective e => some (collUnit (s.knotOf e % 16), .tc2)
  | .graft rk _ => some (s.coreOf rk, .tc2)
  | .healthWindowUpdate => some (firmwareCore, .tc3)
  | .retry core => some (core, .tc3)
  | .kill core => some (core, .tc3)
  | .host core => some (core, .tc3)
  | .preempt _ => some (firmwareCore, .tc3)
  | .preemptResume _ => some (firmwareCore, .tc3)
  | _ => none
/-- A message that a switch dropped: its packet takes its source's next number at the first drop, and packets whose messages
have been taken are acknowledged (R323; DEDUCED, log 32). -/
def State.dropMessage (s : State) (o : Owed) : State :=
  let s : State := { s with mod := { s.mod with packets := s.mod.packets.filter (fun p => p.msg.all s.pending.contains) } }
  match s.packetOf o, s.mod.packets.find? (fun p => p.msg = some o) with
  | none, _ => s
  | some _, some p => s.setPacket p.id (fun p => p.refused s)
  | some (src, c), none =>
    let n := s.seqOf src
    let id := s.fresh
    ((s.bump.bumpSeq src).setPacket id (fun p => { p with msg := some o, source := src, seq := n, cls := c })).setPacket id
      (fun p => p.refused s)
/-- PACKET_RESEND: a packet that was refused is sent again. A request that the receiver has taken meanwhile becomes a
duplicate, which the receiver discards; any other message keeps its place until it is taken (R323). -/
def execPacketResend (s : State) : Host.Outcome State Fault Refusal :=
  match s.doing with
  | some (.packetResend id) =>
    .next (match s.heldRequest id with
      | some q =>
        let t := s.setPacket id (fun p => (p.ofRequest q).refused s)
        if s.requestSent id then t else t.owe (.remoteRequest q)
      | none =>
        match s.flightCore id with
        | some k => s.setPacket id (fun p => { p with source := k, cls := .tc1 }.refused s)
        | none => s.setPacket id (fun p => p.refused s))
  | some (.messageResend n) =>
    .next (match s.pending[n]? with
      | some o => s.dropMessage o
      | none => s)
  | _ => .next s
/-- AGE of FABARB (R325). -/
def State.fabAge (s : State) : Nat := bits s.mod.fabarb.toNat 44 32
/-- AGE_PROMOTION: the packet's counter reaches AGE, and it joins the head of TC0 service behind those promoted before. -/
def execAgePromotion (s : State) : Host.Outcome State Fault Refusal :=
  match s.doing with
  | some (.agePromotion id) =>
    .next (if s.mod.packets.any (fun p => p.id == id && p.promoted) then s
      else s.setPacket id (fun p => { p with age := s.fabAge, promoted := true }))
  | _ => .next s

/-! ## Failure of a core (R257) -/

/-- Collectives with a member rank that a predicate selects abort. -/
def State.abortColls (s : State) (p : EvState → RankKey → Bool) : State :=
  s.mod.events.foldl (fun s x =>
    match x.coll with
    | some c => if (s.collJobs c).any (fun j => p x j.rank) then s.abortColl x.key else s
    | none => s) s
/-- CORE_FAILURE: the core runs nothing any more, and the collectives of its ranks abort.
(DEDUCED, log 35). -/
def execCoreFailure (s : State) : Host.Outcome State Fault Refusal :=
  match s.doing with
  | some (.coreFailure core) =>
    if core < 0x8000 then
      .next ((s.setSched { s.sched core with failed := true }).abortColls (fun _ k => s.coreOf k == core))
    else .fault .noSuchUnit
  | _ => .next s

end Sys2Proof.Machine
end

