-- ==== Sys2Proof/Machine/Health.lean ====
section
/-! DEFINITION. Health registers, wear monitors, scrubbing, power and cooling limits (R361 to R364), and the scale-up links
with the failure of a peer or of the host link (R250, R271, R350 to R352). -/

namespace Sys2Proof.Machine

/-! ## The health registers as words (R363) -/

/-- Which monitors exist: 2 is absent on die 4, 4 on dies 0 to 3 (R362). -/
def monitorThere (die mon : Nat) : Bool := die < 5 && mon < 5 && !(die == 4 && mon == 2) && !(die < 4 && mon == 4)
/-- A monitor; an absent one reads zero. -/
def Health.monitor (h : Health) (die mon : Nat) : Monitor :=
  if monitorThere die mon then h.mons.toList.getD (5 * die + mon) { slope := 0, init := 0, now := 0 }
  else { slope := 0, init := 0, now := 0 }
/-- HMON of a monitor. -/
def Health.hmon (h : Health) (die mon : Nat) : Word :=
  let m := h.monitor die mon
  0#16 ++ m.slope ++ m.init ++ m.now
def Health.hecc (h : Health) : Word := h.eccDram ++ h.eccSram
def Health.htherm (h : Health) : Word := 0#39 ++ BitVec.ofBool h.trip ++ h.step ++ h.inlet ++ h.tj
def Health.hpwr (h : Health) : Word := 0#32 ++ h.pwr ++ h.cap
def Health.hevtWord (h : Health) : Word := 0#60 ++ h.hevt
def Health.hsel (h : Health) : Word := 0#57 ++ h.mon ++ 0#1 ++ h.die
/-- Changing the health registers. -/
def State.updHealth (s : State) (f : Health → Health) : State := { s with mod := { s.mod with health := f s.mod.health } }
/-- HCLR bit 0. -/
def Health.clearEcc (h : Health) : Health := { h with eccDram := 0, eccSram := 0 }
/-- HCLR bit 1. -/
def Health.clearPoison (h : Health) : Health := { h with hpoison := 0, hpaddr := 0 }
/-- HCLR_ECC. -/
def execHclrEcc (s : State) : Host.Outcome State Fault Refusal :=
  match s.doing with
  | some .hclrEcc => .next (s.updHealth Health.clearEcc)
  | _ => .next s
/-- HCLR_POISON. -/
def execHclrPoison (s : State) : Host.Outcome State Fault Refusal :=
  match s.doing with
  | some .hclrPoison => .next (s.updHealth Health.clearPoison)
  | _ => .next s

/-! ## Wear monitors (R362) -/

/-- A margin below this is under 1/8 of its guard band. -/
def marginLow : Nat := 8192
/-- A sample of a monitor: NOW takes the margin, and the fitted SLOPE is left open (DESIGN CHOICE, log 9). -/
def State.sample (s : State) (die mon margin : Nat) : State :=
  let f (m : Monitor) : Monitor :=
    { m with now := BitVec.ofNat 16 margin, slope := BitVec.ofNat 16 (leNat (s.freeBytes (5 * die + mon) 2)) }
  let t := s.updHealth (fun h => { h with mons := Vector.ofFn (fun i => if i.val = 5 * die + mon then f h.mons[i] else h.mons[i]) })
  if margin % 65536 < marginLow then t.healthEvent 0 else t
/-- MONITOR_SAMPLE. -/
def execMonitorSample (s : State) : Host.Outcome State Fault Refusal :=
  match s.doing with
  | some (.monitorSample die mon margin) =>
    if monitorThere die mon then .next (s.sample die mon margin) else .fault .noSuchUnit
  | _ => .next s

/-! ## Soft errors (R361) -/

/-- A count that saturates. -/
def satInc (x : Word32) : Word32 := if x = 0xFFFFFFFF then x else x + 1
/-- A corrected error: counted, no data changed. -/
def State.countEcc (s : State) (dram : Bool) : State :=
  s.updHealth (fun h => if dram then { h with eccDram := satInc h.eccDram } else { h with eccSram := satInc h.eccSram })
/-- Lines of the vaults; scratchpad lines are numbered after them, 8,192 for each core in the order W, A, C. -/
def vaultLines : Nat := vaultTop / 64
/-- Buffer and line of a scratchpad line of a core.
(DEDUCED, log 22). -/
def padLine (i : Nat) : Buf × Nat := if i < 4096 then (.w, i) else if i < 6144 then (.a, i - 4096) else (.c, i - 6144)
/-- An uncorrectable error that the scrub finds poisons its line, and is counted. -/
def State.poisonLine (s : State) (line : Nat) : State :=
  if line < vaultLines then
    if s.mod.poison.contains line then s
    else
      let t : State := { s with mod := { s.mod with poison := s.mod.poison ++ [line] } }
      t.countPoison (some line)
  else
    let i := line - vaultLines
    let (b, l) := padLine (i % 8192)
    let x := ((s.execOf (i / 8192)).rank.key, b, l)
    if s.mod.bufPoison.contains x then s
    else
      let t : State := { s with mod := { s.mod with bufPoison := s.mod.bufPoison ++ [x] } }
      t.countPoison none
/-- PATROL_SCRUB. -/
def execPatrolScrub (s : State) : Host.Outcome State Fault Refusal :=
  match s.doing with
  | some (.patrolScrub line f) =>
    if vaultLines + 8192 * 32768 ≤ line then .fault .noSuchUnit
    else .next (match f with
      | .clean => s
      | .corrected dram => s.countEcc dram
      | .poisoned => s.poisonLine line)
  | _ => .next s

/-! ## Power and cooling (R364) -/

/-- Clock steps from 1.6 GHz to the floor of 0.8 GHz. -/
def clockSteps : Nat := 8
/-- POWER_CAP_WINDOW: the power of a 10 ms window; above CAP the clock falls a step, at or below it the clock regains one,
and above 3,300 W the part trips.
(DEDUCED, log 33). -/
def execPowerCapWindow (s : State) : Host.Outcome State Fault Refusal :=
  match s.doing with
  | some (.powerCapWindow w) =>
    let t := s.updHealth (fun h => { h with
      pwr := BitVec.ofNat 16 w
      capSteps := if h.cap.toNat < w then (if h.capSteps + h.step.toNat < clockSteps then h.capSteps + 1 else h.capSteps)
        else h.capSteps - 1 })
    .next (if 3300 < w then t.oweOnce .thermalTrip else t)
  | _ => .next s
/-- Temperatures of R364. -/
def tripAt : Nat := 110
def throttleAt : Nat := 100
def regainBelow : Nat := 95
/-- THERMAL_THROTTLE: a hot junction forces a further step, a cool one regains one, and 110 °C trips. INLET is a sensor
value that the spec leaves open (DESIGN CHOICE, log 9). -/
def execThermalThrottle (s : State) : Host.Outcome State Fault Refusal :=
  match s.doing with
  | some (.thermalThrottle tj) =>
    let t := s.updHealth (fun h => { h with tj := BitVec.ofNat 8 (Nat.min tj 255), inlet := (s.freeBytes 0 1).headD 0 })
    .next (if tripAt ≤ tj then t.oweOnce .thermalTrip
      else if throttleAt ≤ tj then
        (t.updHealth (fun h => { h with step := if h.capSteps + h.step.toNat < clockSteps then h.step + 1 else h.step })).healthEvent 2
      else if tj < regainBelow then t.updHealth (fun h => { h with step := if h.step = 0 then 0 else h.step - 1 })
      else t)
  | _ => .next s
/-- THERMAL_TRIP: every core stops, TRIP is set, and every launch queue is torn down as by RESET. -/
def execThermalTrip (s : State) : Host.Outcome State Fault Refusal :=
  match s.doing with
  | some .thermalTrip =>
    let t := s.updHealth (fun h => { h with trip := true })
    .next (t.mod.ctxs.foldl (fun s c => s.killContext c.id) t)
  | _ => .next s

/-! ## The health window (R363) -/

/-- HEALTH_WINDOW_UPDATE: the registers and each monitor's HMON word. -/
def execHealthWindowUpdate (s : State) : Host.Outcome State Fault Refusal :=
  match s.doing with
  | some .healthWindowUpdate =>
    let h := s.mod.health
    let regs := [h.heol, h.hecc, h.hpoison, h.hpaddr, h.htherm, h.hpwr, h.hevtWord].flatMap (fun x => natBytes 8 x.toNat)
    let mons := (List.range 40).flatMap (fun i => natBytes 8 (h.hmon (i / 8) (i % 8)).toNat)
    .next (s.updHealth (fun h => { h with window := (Memory.write [] 0 regs).write 0x100 mons }))
  | _ => .next s

/-! ## Scale-up links (R350 to R352) -/

/-- LINKSTAT of a link. -/
def Link.word (l : Link) : Word := l.peer ++ l.retry ++ l.margin ++ l.lanes ++ 0#14 ++ l.mode
/-- A link by number. -/
def State.link (s : State) (n : Nat) : Option Link := s.mod.links.toList[n]?
/-- Replacing a link. -/
def State.setLink (s : State) (n : Nat) (l : Link) : State :=
  { s with mod := { s.mod with links := Vector.ofFn (fun i => if i.val = n then l else s.mod.links[i]) } }
/-- The lanes of each half. -/
def lowHalf : BitVec 8 := 0x0F
def highHalf : BitVec 8 := 0xF0
/-- A link moves to a lower mode with the lanes it keeps; in mode 3 it is down (R351). -/
def Link.stepTo (l : Link) (now : Nat) (mode : BitVec 2) (lanes bad : BitVec 8) : Link :=
  { l with mode := mode, lanes := lanes, bad := bad, step := some now,
           down := if mode = 3 then some (l.down.getD now) else l.down }
/-- MARGIN of a link: what its lanes measure, which no rule gives (R352; DESIGN CHOICE, log 33). -/
def State.linkMargin (s : State) (n : Nat) : BitVec 8 := (s.freeBytes n 1).headD 0
/-- What a link does when a lane fails its margin (R351).
(DEDUCED, log 33). -/
def Link.laneFails (l : Link) (now : Nat) (lane : BitVec 8) : Link :=
  let bad := l.bad ||| lane
  match l.mode.toNat with
  | 0 => l.stepTo now 1 0xFF 0
  | 1 =>
    if bad &&& lowHalf = 0 then l.stepTo now 2 lowHalf bad
    else if bad &&& highHalf = 0 then l.stepTo now 2 highHalf bad
    else l.stepTo now 3 0 bad
  | 2 => if l.lanes &&& lane = 0 then { l with bad := bad } else l.stepTo now 3 0 bad
  | _ => l
/-- LANE_MARGIN_FAIL. -/
def execLaneMarginFail (s : State) : Host.Outcome State Fault Refusal :=
  match s.doing with
  | some (.laneMarginFail n lane) =>
    match s.link n with
    | some l =>
      if 8 ≤ lane then .fault .noSuchUnit
      else
        let m := { l.laneFails s.time (1#8 <<< lane) with margin := s.linkMargin n }
        let t := s.setLink n m
        .next (if m.mode = 3 ∧ l.mode ≠ 3 then t.oweOnce (.linkTimeout l.peer.toNat)
          else if m.step.isSome then t.oweOnce (.linkStepDone n) else t)
    | none => .fault .noSuchUnit
  | _ => .next s
/-- LINK_STEP_DONE: the held flits flow again. -/
def execLinkStepDone (s : State) : Host.Outcome State Fault Refusal :=
  match s.doing with
  | some (.linkStepDone n) =>
    match s.link n with
    | some l => .next (s.setLink n { l with step := none })
    | none => .fault .noSuchUnit
  | _ => .next s
/-- FLIT_REPLAY: RETRY counts a resent flit and saturates (R350, R352). -/
def execFlitReplay (s : State) : Host.Outcome State Fault Refusal :=
  match s.doing with
  | some (.flitReplay n) =>
    match s.link n with
    | some l =>
      .next (if l.mode = 3 then s else s.setLink n { l with retry := if l.retry = 0xFFFF then l.retry else l.retry + 1 })
    | none => .fault .noSuchUnit
  | _ => .next s
/-- An event with parties on one of some parts is being resolved (R351). -/
def State.claimedAcross (s : State) (ps : List Nat) : Bool :=
  s.mod.events.any (fun x => x.peers.any ps.contains && x.round.isSome)
/-- Physical 64 KiB pages of a leaf entry. -/
def leafPages (e : Nat) : List Nat :=
  if leafS e then (List.range 512).map (fun i => 512 * bits e 47 25 + i) else [bits e 47 16]
/-- Pages outside the vaults that a peer backs and that some context maps. -/
def State.mappedPages (s : State) (p : Nat) : List Nat :=
  (s.mod.ctxs.flatMap (fun c => (s.leaves c.id).flatMap (fun x => leafPages x.2))).filter (fun g =>
    !inVault (g * 2 ^ 16) && Config.backing g == p)
/-- LINK_RETRAIN: firmware starts a full retrain to mode 0 only when no event of the link's peers is CLAIMED across the
link. A peer that had failed is reached again; loads from the pages that it backed before still trap POISON until firmware
unmaps or remaps them (R271). -/
def execLinkRetrain (s : State) : Host.Outcome State Fault Refusal :=
  match s.doing with
  | some (.linkRetrain n peer) =>
    match s.link n with
    | some l =>
      if 0xFFFF ≤ peer then .fault .noSuchUnit
      else if s.claimedAcross [l.peer.toNat, peer] then .next s
      else
        let t := s.setLink n { l with peer := BitVec.ofNat 16 peer, mode := 0, lanes := 0xFF, step := none, down := none,
                                      bad := 0, margin := s.linkMargin n }
        .next (if t.mod.failed.contains peer then { t with mod := { t.mod with
            failed := t.mod.failed.filter (fun p => p ≠ peer)
            lostPages := (t.mod.lostPages ++ t.mappedPages peer).eraseDups } }
          else t)
    | none => .fault .noSuchUnit
  | _ => .next s

/-! ## A failed peer, or a failed host link (R250, R271) -/

/-- The link timeout, in nanoseconds. -/
def linkLimit : Nat := 50000
/-- How FSTAT and this model name the host. -/
def hostParty : Nat := 0xFFFF
/-- Since when a link has been down: in mode 3, or in a step that goes on (R351). -/
def Link.downSince (l : Link) : Option Nat := match l.down with
  | some t => some t
  | none => l.step
/-- Since when a party cannot be reached: the host link, or every link to a peer. -/
def State.partyDown (s : State) (p : Nat) : Option Nat :=
  if p = hostParty then s.mod.hostDown
  else
    let ls := s.mod.links.toList.filter (fun l => l.peer.toNat == p)
    if ls.isEmpty || ls.any (fun l => l.downSince.isNone) then none
    else some (ls.foldl (fun n l => Nat.max n (l.downSince.getD 0)) 0)
/-- The offer of a record that an event has CLAIMED and that has other alternatives: it leaves the event without an
outcome, and the others stay pending (R250). -/
def State.letGo (s : State) (e : EvKey) (o : Offer) : Bool :=
  !o.single && s.mod.recs.any (fun r => r.ro == o.ro && (match r.state with
    | .claimed f _ => f == e
    | _ => false))
/-- An event with parties on a failed part: its round is released, the records it CLAIMED are let go, and every other
offer of the instance is cancelled with PEER_FAILED (R250). -/
def State.failEvent (s : State) (x : EvState) : State :=
  let s := s.updEv x.key (fun y => { y with offers := y.offers.filter (fun o => !s.letGo x.key o) })
  let s := match x.round with
    | some d => if d.released then s else s.releaseRound x.key d none
    | none => s
  s.endEvent x.key (.cancel .peerFailed)
/-- The events with parties on a part that has failed. -/
def State.failEvents (s : State) (p : Nat) : State :=
  (s.mod.events.filter (fun x => x.peers.contains p)).foldl (fun s x => s.failEvent x) s
/-- A party is declared failed. -/
def State.failParty (s : State) (p : Nat) : State :=
  let t : State := { s with mod := { s.mod with failed := if s.mod.failed.contains p then s.mod.failed else s.mod.failed ++ [p] } }
  if p = hostParty then t else (t.failEvents p).abortColls (fun x _ => x.peers.contains p)
/-- LINK_TIMEOUT: the party has been down for the link timeout, counted from when its link went down. -/
def execLinkTimeout (s : State) : Host.Outcome State Fault Refusal :=
  match s.doing with
  | some (.linkTimeout p) =>
    .next (match s.partyDown p with
      | some t => ({ s with time := Nat.max s.time (t + linkLimit) }).failParty p
      | none => s)
  | _ => .next s
/-- HOST_LINK_DOWN. -/
def execHostLinkDown (s : State) : Host.Outcome State Fault Refusal :=
  match s.doing with
  | some .hostLinkDown =>
    let t : State := { s with mod := { s.mod with hostDown := some (s.mod.hostDown.getD s.time) } }
    .next (t.oweOnce (.linkTimeout hostParty))
  | _ => .next s

end Sys2Proof.Machine
end

