-- ==== Sys2Proof/Machine/Csr.lean ====
section
/-! DEFINITION. Control and status registers (R3, R4, R33 to R37, R115 to R117, R220, R325, R327 to R331, R340, R352, R363):
their fields, reads, writes and checks. -/

namespace Sys2Proof.Machine

/-! ## Fields (R3, R4) -/

/-- The fields of a register by access: read and write (or write-only), write-one-to-clear, and reserved; the rest is
read-only. -/
structure CsrInfo where
  rw : Word
  w1c : Word
  rsv : Word
  deriving DecidableEq, Repr
/-- Bits hi to lo. -/
def maskOf (hi lo : Nat) : Word := BitVec.ofNat 64 ((2 ^ (hi + 1 - lo) - 1) * 2 ^ lo)
/-- A register whose writable bits are given, all others reserved. -/
def CsrInfo.of (rw : Word) : CsrInfo := { rw := rw, w1c := 0, rsv := ~~~rw }
/-- A register without writable fields, with its reserved bits. -/
def CsrInfo.ro (rsv : Word) : CsrInfo := { rw := 0, w1c := 0, rsv := rsv }
/-- A register of write-one-to-clear bits, all others reserved. -/
def CsrInfo.clear (w1c : Word) : CsrInfo := { rw := 0, w1c := w1c, rsv := ~~~w1c }
/-- Fields of EVSTAT, FSTAT and MCTBASE (R33 to R35). -/
def evstatInfo : CsrInfo := .of (maskOf 63 32 ||| maskOf 27 5 ||| maskOf 3 0)
def fstatInfo : CsrInfo := .of (maskOf 23 8 ||| maskOf 3 0)
def mctInfo : CsrInfo := .of (maskOf 51 7)
/-- Fields of a window; its value is checked by R28. -/
def winInfo : CsrInfo := .of (maskOf 63 57 ||| maskOf 55 14)
/-- The task-level registers that no task can write (R116). -/
def noTaskWrite (n : Nat) : Bool :=
  n ≤ 0x006 || (0x010 ≤ n && n ≤ 0x017) || (0x020 ≤ n && n ≤ 0x023) || n == 0x060 || n == 0x070
/-- The registers below 0x800 (R33). -/
def taskCsr (n : Nat) : Option CsrInfo :=
  if n ≤ 0x006 then some (.ro 0)
  else if n = 0x008 then some fstatInfo
  else if n = 0x009 then some evstatInfo
  else if 0x010 ≤ n ∧ n ≤ 0x017 then some (.ro 0)
  else if 0x020 ≤ n ∧ n ≤ 0x023 then some (.ro 0)
  else if n = 0x024 then some (.clear (maskOf 3 0))
  else if n = 0x028 then some (.of 1)
  else if n = 0x029 then some (.clear (maskOf 5 0))
  else if n = 0x030 then some (.of (maskOf 63 0))
  else if n = 0x031 ∨ n = 0x032 then some (.of (maskOf 31 0))
  else if 0x040 ≤ n ∧ n ≤ 0x047 then some winInfo
  else if n = 0x050 then some (.of (maskOf 63 0))
  else if n = 0x060 then some (.ro 0)
  else if n = 0x070 then some mctInfo
  else none
/-- The supervisor registers (R220, R325, R340, R352, R363). Those whose access the spec does not give, TRAPCODE to
TRAPSEQ and CTXREC, can be written, and the bits that no rule names, of TRAPCODE, TVEC, IPEND, CTXSEL, PTBASE, FMTBASE,
BUDGET, PARTITION and VQBASE, are reserved (DEDUCED, log 11). -/
def supCsr (n : Nat) : Option CsrInfo :=
  match n with
  | 0x800 => some { rw := maskOf 3 1, w1c := 0, rsv := maskOf 63 4 }
  | 0x801 => some (.of (maskOf 15 0))
  | 0x802 => some (.of (maskOf 63 0))
  | 0x803 => some (.of (maskOf 63 0))
  | 0x804 => some (.of (maskOf 63 0))
  | 0x805 => some (.of (maskOf 63 0))
  | 0x806 => some (.ro (maskOf 63 61))
  | 0x807 => some (.ro 0)
  | 0x808 => some (.of (maskOf 2 0))
  | 0x809 => some (.of (maskOf 51 2))
  | 0x80A => some (.clear (maskOf 3 0))
  | 0x810 => some (.of (maskOf 47 12))
  | 0x811 => some (.of (maskOf 5 0))
  | 0x812 => some (.of (maskOf 47 15))
  | 0x813 => some (.of (maskOf 51 8))
  | 0x814 => some (.of (maskOf 12 0))
  | 0x815 => some (.of (maskOf 47 9))
  | 0x816 => some (.of (maskOf 51 13))
  | 0x817 => some { rw := maskOf 62 62 ||| maskOf 21 0, w1c := 0, rsv := maskOf 61 22 }
  | 0x8C0 => some (.of (maskOf 44 0))
  | 0x900 => some (.of (maskOf 6 4 ||| maskOf 2 0))
  | 0x901 => some (.ro (maskOf 63 48))
  | 0x902 => some (.of (maskOf 63 56 ||| maskOf 47 0))
  | 0x903 => some (.ro 0)
  | 0x904 => some (.ro 0)
  | 0x905 => some (.ro 0)
  | 0x906 => some (.ro (maskOf 63 25))
  | 0x907 => some { rw := maskOf 15 0, w1c := 0, rsv := maskOf 63 32 }
  | 0x908 => some (.of (maskOf 1 0))
  | 0x909 => some (.clear (maskOf 3 0))
  | n => if 0xA00 ≤ n ∧ n ≤ 0xA0B then some { rw := 0, w1c := maskOf 47 32, rsv := maskOf 15 2 } else none
/-- The fields of a register that the focused core may access, or the trap of one that it may not (R33, R115, R340). -/
def State.csrInfo (s : State) (n : Nat) : Except Trap CsrInfo :=
  if n < 0x800 then
    match taskCsr n with
    | some i => .ok i
    | none => .error .illegal
  else if !s.supervisor then .error .priv
  else
    match supCsr n with
    | some i => .ok i
    | none => .error .illegal

/-! ## Reading (R33, R117, R328) -/

/-- FSTAT, EVSTAT, TCFG and MX registers by number. -/
def State.csrTask (s : State) (n : Nat) : Word :=
  match n with
  | 0x000 => BitVec.ofNat 64 s.time
  | 0x001 => BitVec.ofNat 64 s.cycle
  | 0x002 => BitVec.ofNat 64 (s.rankNo % 2 ^ 20)
  | 0x003 => BitVec.ofNat 64 (s.nrank % 2 ^ 21)
  | 0x004 => BitVec.ofNat 64 (s.core % 2 ^ 15)
  | 0x005 => BitVec.ofNat 64 (s.run.ctx % 64)
  | 0x006 => s.r.segseq
  | 0x008 => s.r.fstat
  | 0x009 => s.r.evstat
  | 0x024 => s.r.mxflag.setWidth 64
  | 0x028 => BitVec.ofNat 64 (b2n s.r.fe)
  | 0x029 => s.r.fpflags.setWidth 64
  | 0x030 => s.r.coinseed
  | 0x031 => s.r.lc[0].count.setWidth 64
  | 0x032 => s.r.lc[1].count.setWidth 64
  | 0x050 => s.r.live
  | 0x060 => if s.run.kind = .compute then BitVec.ofNat 64 (s.run.start + s.run.budget - s.time) else 0
  | 0x070 => ((s.ctx (if s.supervisor then s.run.sup.ctxsel.toNat else s.run.ctx)).map (fun c => c.mctbase)).getD 0
  | n =>
    if 0x010 ≤ n ∧ n ≤ 0x017 then (s.r.tcfg.toList.getD (n - 0x010) 0).setWidth 64
    else if 0x020 ≤ n ∧ n ≤ 0x023 then (s.r.mx.toList.getD (n - 0x020) 0).setWidth 64
    else if 0x040 ≤ n ∧ n ≤ 0x047 then s.rank.wins.toList.getD (n - 0x040) 0
    else 0
/-- STATUS (R220). -/
def Sup.status (u : Sup) : Word :=
  BitVec.ofNat 64 (8 * b2n u.pie + 4 * b2n u.ie + 2 * b2n u.ppriv + b2n u.priv)
/-- A supervisor register's value; TRAPNEXT is read by `popReport`. -/
def State.csrSup (s : State) (n : Nat) : Word :=
  let u := s.run.sup
  let c := s.ctxRegs u.ctxsel.toNat
  let h := s.mod.health
  match n with
  | 0x800 => u.status
  | 0x801 => u.trapcode.setWidth 64
  | 0x802 => u.trappc
  | 0x803 => u.trapaddr
  | 0x804 => u.trapmsg
  | 0x805 => u.trapseq
  | 0x806 => u.trapsrc
  | 0x809 => u.tvec
  | 0x80A => (s.ipendOf s.run).setWidth 64
  | 0x810 => u.ctxrec
  | 0x811 => u.ctxsel.setWidth 64
  | 0x812 => c.ptbase
  | 0x813 => c.fmtbase
  | 0x814 => BitVec.ofNat 64 c.budget
  | 0x815 => c.partition
  | 0x816 => c.vqbase
  | 0x817 => s.mod.preempt
  | 0x8C0 => s.mod.fabarb
  | 0x900 => h.hsel
  | 0x901 => h.hmon h.die.toNat h.mon.toNat
  | 0x902 => h.heol
  | 0x903 => h.hecc
  | 0x904 => h.hpoison
  | 0x905 => h.hpaddr
  | 0x906 => h.htherm
  | 0x907 => h.hpwr
  | 0x909 => h.hevtWord
  | n => if 0xA00 ≤ n ∧ n ≤ 0xA0B then ((s.link (n - 0xA00)).map Link.word).getD 0 else 0
/-- A register's value. -/
def State.csrValue (s : State) (n : Nat) : Word := if n < 0x800 then s.csrTask n else s.csrSup n
/-- What a held command may still change in a register that is read or written (R117). -/
def csrRes (n : Nat) : List Res :=
  if n = 0x029 then [.fpflags] else if n = 0x024 then mxflagRes else if 0x020 ≤ n ∧ n ≤ 0x023 then [.mx (n - 0x020)] else []
/-- CSRR (R115); reading TRAPNEXT pops a report (R328). -/
def execCsrr (h : Hdr) (d : GReg) (csr : BitVec 12) (s : State) : Host.Outcome State Fault Refusal :=
  checkedStep h 8 (fun s =>
    match s.csrInfo csr.toNat with
    | .error t => s.trap t
    | .ok _ =>
      s.needs (csrRes csr.toNat) [] (fun s =>
        if csr.toNat = 0x807 then
          let (x, s) := s.popReport s.core
          (s.setG d x).retire 8
        else (s.setG d (s.csrValue csr.toNat)).retire 8)) s

/-! ## Writing (R116) -/

/-- The three kinds of write. -/
inductive CsrOp where | write | set | clear
  deriving DecidableEq, Repr
/-- The value that a write leaves, field by field (R116). The table of R116 has no row for a WO field: it is treated
as RW over the value 0 that it reads as, so that csrs and csrw of TRAPACT or HCLR act alike and csrc writes 0, which is
RETRY for TRAPACT (DESIGN CHOICE, log 11). -/
def CsrInfo.result (i : CsrInfo) (op : CsrOp) (old a : Word) : Word :=
  let rw := match op with
    | .write => a
    | .set => old ||| a
    | .clear => old &&& ~~~a
  let w1c := match op with
    | .set => old
    | _ => old &&& ~~~a
  (rw &&& i.rw) ||| (w1c &&& i.w1c) ||| (old &&& ~~~(i.rw ||| i.w1c))
/-- Whether csrw or csrs sets a reserved bit (R4, R116). -/
def CsrInfo.reserved (i : CsrInfo) (op : CsrOp) (a : Word) : Bool :=
  match op with
  | .clear => false
  | _ => a &&& i.rsv != 0
/-- Whether a register's own rule refuses a value (R28, R40, R325, R329, R331, R363). -/
def State.csrRefused (s : State) (n : Nat) (x : Word) : Bool :=
  match n with
  | 0x008 => 8 < x.toNat % 16
  | 0x009 => 8 < x.toNat % 16
  | 0x808 => 2 < x.toNat || s.actable.isNone
  | 0x814 => x.toNat == 0 || 5000 < x.toNat
  | 0x817 => s.preemptRefused (x &&& 0x7FFFFFFFFFFFFFFF)
  | 0x8C0 =>
    bits x.toNat 44 32 == 0 || 4096 < bits x.toNat 44 32 || bits x.toNat 31 24 == 0 || bits x.toNat 23 16 == 0 ||
      bits x.toNat 15 8 == 0 || bits x.toNat 7 0 == 0
  | 0x900 => 4 < bits x.toNat 6 4 || 4 < bits x.toNat 2 0
  | 0x907 => bits x.toNat 15 0 < 1000 || 3000 < bits x.toNat 15 0
  | n => 0x040 ≤ n && n ≤ 0x047 && s.winRefused x
/-- Writing a task-level register's value. A supervisor write of MCTBASE reaches the context that CTXSEL names, as a
selected register does (DEDUCED, log 11). -/
def State.putTask (s : State) (n : Nat) (x : Word) : State :=
  match n with
  | 0x008 => { s with r := { s.r with fstat := x } }
  | 0x009 => { s with r := { s.r with evstat := x } }
  | 0x024 => { s with r := { s.r with mxflag := x.setWidth 4 } }
  | 0x028 => { s with r := { s.r with fe := x.getLsbD 0 } }
  | 0x029 => { s with r := { s.r with fpflags := x.setWidth 6 } }
  | 0x030 => { s with r := { s.r with coinseed := x } }
  | 0x031 => { s with r := { s.r with lc := s.r.lc.set 0 { s.r.lc[0] with count := x.setWidth 32 } } }
  | 0x032 => { s with r := { s.r with lc := s.r.lc.set 1 { s.r.lc[1] with count := x.setWidth 32 } } }
  | 0x050 => { s with r := { s.r with live := x } }
  | 0x070 => s.updCtx s.run.sup.ctxsel.toNat (fun c => { c with mctbase := x })
  | n => if 0x040 ≤ n ∧ n ≤ 0x047 then s.setWin (BitVec.ofNat 3 (n - 0x040)) x else s
/-- Changing the supervisor registers of the focused core. -/
def State.updSup (s : State) (f : Sup → Sup) : State := { s with run := { s.run with sup := f s.run.sup } }
/-- Changing the selected-scope registers. -/
def State.updSel (s : State) (f : CtxRegs → CtxRegs) : State := s.updCtxRegs s.run.sup.ctxsel.toNat f
/-- The act of a TRAPACT value. -/
def trapActOf (x : Word) : TrapAct := match x.toNat with
  | 0 => .retry
  | 1 => .kill
  | _ => .host
/-- Writing a supervisor register's value. -/
def State.putSup (s : State) (n : Nat) (x : Word) : State :=
  match n with
  | 0x800 => s.updSup (fun u => { u with pie := x.getLsbD 3, ie := x.getLsbD 2, ppriv := x.getLsbD 1 })
  | 0x801 => s.updSup (fun u => { u with trapcode := x.setWidth 16 })
  | 0x802 => s.updSup (fun u => { u with trappc := x })
  | 0x803 => s.updSup (fun u => { u with trapaddr := x })
  | 0x804 => s.updSup (fun u => { u with trapmsg := x })
  | 0x805 => s.updSup (fun u => { u with trapseq := x })
  | 0x808 => match s.actable with
    | some r => s.actOn r (trapActOf x)
    | none => s
  | 0x809 => s.updSup (fun u => { u with tvec := x })
  | 0x80A => s.updSup (fun u => { u with ipend := x.setWidth 4 })
  | 0x810 => s.updSup (fun u => { u with ctxrec := x })
  | 0x811 => s.updSup (fun u => { u with ctxsel := x.setWidth 6 })
  | 0x812 => s.updSel (fun c => { c with ptbase := x })
  | 0x813 => s.updSel (fun c => { c with fmtbase := x })
  | 0x814 => s.updSel (fun c => { c with budget := x.toNat })
  | 0x815 => s.updSel (fun c => { c with partition := x })
  | 0x816 => s.updSel (fun c => { c with vqbase := x })
  | 0x817 => s.preemptWrite (x &&& 0x7FFFFFFFFFFFFFFF)
  | 0x8C0 => { s with mod := { s.mod with fabarb := x } }
  | 0x900 => s.updHealth (fun h => { h with mon := x.extractLsb' 4 3, die := x.setWidth 3 })
  | 0x902 => (s.updHealth (fun h => { h with heol := x })).healthEvent 3
  | 0x907 => s.updHealth (fun h => { h with cap := x.setWidth 16 })
  | 0x908 =>
    let s := if x.getLsbD 0 then s.updHealth Health.clearEcc else s
    if x.getLsbD 1 then s.updHealth Health.clearPoison else s
  | 0x909 => s.updHealth (fun h => { h with hevt := x.setWidth 4 })
  | n =>
    match s.link (n - 0xA00) with
    | some l => if 0xA00 ≤ n ∧ n ≤ 0xA0B then s.setLink (n - 0xA00) { l with retry := x.extractLsb' 32 16 } else s
    | none => s
/-- Writing a register's value. -/
def State.csrPut (s : State) (n : Nat) (x : Word) : State := if n < 0x800 then s.putTask n x else s.putSup n x
/-- A register write by its checks in the order of R116: access, reserved bits, the register's own rule; `k` goes on. -/
def State.csrWrite (s : State) (op : CsrOp) (n : Nat) (a : Word) (k : State → State) : State :=
  match s.csrInfo n with
  | .error t => s.trap t
  | .ok i =>
    if noTaskWrite n && (n != 0x070 || !s.supervisor) then k s
    else if i.reserved op a then s.trap .illegal
    else
      s.needs [] (csrRes n) (fun s =>
        let x := i.result op (s.csrValue n) a
        if s.csrRefused n x then s.trap .illegal else k (s.csrPut n x))
/-- A write instruction. -/
def csrStep (op : CsrOp) (h : Hdr) (csr : BitVec 12) (a : GReg) (s : State) : Host.Outcome State Fault Refusal :=
  checkedStep h 8 (fun s => s.csrWrite op csr.toNat (s.g a) (fun s => s.retire 8)) s
/-- CSRW (R115, R116). -/
def execCsrw (h : Hdr) (csr : BitVec 12) (a : GReg) (s : State) : Host.Outcome State Fault Refusal :=
  csrStep .write h csr a s
/-- CSRS (R115, R116). -/
def execCsrs (h : Hdr) (csr : BitVec 12) (a : GReg) (s : State) : Host.Outcome State Fault Refusal :=
  csrStep .set h csr a s
/-- CSRC (R115, R116). -/
def execCsrc (h : Hdr) (csr : BitVec 12) (a : GReg) (s : State) : Host.Outcome State Fault Refusal :=
  csrStep .clear h csr a s
/-- REGISTER_WRITE: a csrw by a core that runs (R116). -/
def execRegisterWrite (s : State) : Host.Outcome State Fault Refusal :=
  match s.doing with
  | some (.registerWrite core csr v) =>
    let t := s.focus core
    .next (if t.run.on then t.csrWrite .write csr.toNat v (fun s => s) else s)
  | _ => .next s

end Sys2Proof.Machine
end

