-- ==== Sys2Proof/Machine/System.lean ====
section
/-! DEFINITION. TRAP and BRK (R219) and the supervisor instructions (R98, R221 to R225). -/

namespace Sys2Proof.Machine

/-- TRAP (R219). -/
def execTrap (h : Hdr) (imm : BitVec 30) (s : State) : Host.Outcome State Fault Refusal :=
  checkedStep h 8 (fun s => s.trap .user (imm.setWidth 64)) s
/-- BRK (R219). -/
def execBrk (h : Hdr) (imm : BitVec 30) (s : State) : Host.Outcome State Fault Refusal :=
  checkedStep h 8 (fun s => s.trap .break_ (imm.setWidth 64)) s
/-- A supervisor instruction: at task level it traps PRIV, whatever its qualifier (R98, R100). -/
def supStep (h : Hdr) (f : State → State) (s : State) : Host.Outcome State Fault Refusal :=
  if s.supervisor then checkedStep h 8 f s else .next (s.trap .priv)
/-- ERET (R221). -/
def execEret (h : Hdr) (s : State) : Host.Outcome State Fault Refusal :=
  supStep h (fun s => if s.run.sup.trappc.toNat % 4 ≠ 0 then s.trap .align s.run.sup.trappc else s.eret) s

/-! ## XLINV (R222) -/

/-- The entries are gone; the instruction retires once no access that they translated is on its way. -/
def State.xlinvDone (s : State) (m : XlMatch) : State :=
  if s.translated m then s else ({ s.dropLost with run := { s.run with xlSize := 0 } } : State).retire 8
/-- A context number in a register, its other bits zero, or ILLEGAL (R222, R223). -/
def State.withCtxNo (s : State) (a : GReg) (k : Nat → State) : State :=
  if 64 ≤ (s.g a).toNat then s.trap .illegal else k (s.g a).toNat
/-- XLINV. -/
def execXlinv (h : Hdr) (s : State) : Host.Outcome State Fault Refusal :=
  supStep h (fun s => s.invalidateAll.xlinvDone { ctx := none, page := none }) s
/-- XLINV.ctx. -/
def execXlinvCtx (h : Hdr) (a : GReg) (s : State) : Host.Outcome State Fault Refusal :=
  supStep h (fun s => s.withCtxNo a (fun c => (s.invalidateCtx c).xlinvDone { ctx := some c, page := none })) s
/-- Size of the page that a context's entries give an address, as the caches and the table have it, and as an XLINV.va that
still waits found it when it removed them (R336). -/
def State.pageSize (s : State) (ctx va : Nat) : Nat :=
  let big := s.mod.tlb.any (fun t => t.serves ctx va && leafS t.leaf.toNat) || (s.walked ctx va).any leafS
  Nat.max s.run.xlSize (if big then 2 ^ 25 else 2 ^ 16)
/-- XLINV.va. -/
def execXlinvVa (h : Hdr) (a b : GReg) (s : State) : Host.Outcome State Fault Refusal :=
  supStep h (fun s => s.withCtxNo a (fun c =>
    let va := (s.g b).toNat
    if 2 ^ 52 ≤ va then s.trap .illegal else
    let size := s.pageSize c va
    let s : State := { s with run := { s.run with xlSize := size } }
    (s.invalidateVa c va).xlinvDone { ctx := some c, page := some (va, size) })) s

/-! ## CTXSAVE and CTXLOAD (R223) -/

/-- CTXSAVE: a context that is not quiesced traps ILLEGAL; the save waits for occurrences still under way, and for
each job to reach the end of its row or step. -/
def execCtxsave (h : Hdr) (a : GReg) (s : State) : Host.Outcome State Fault Refusal :=
  supStep h (fun s => s.withCtxNo a (fun n =>
    match s.ctx n with
    | none => s.trap .illegal
    | some c =>
      if !s.isQuiesced c then s.trap .illegal
      else if !s.settled n then s
      else
        let s := s.stopJobs n
        if s.stopping n then s else (s.ctxSave c s.run.sup.ctxrec.toNat).retire 8)) s
/-- CTXLOAD: an allocated number traps ILLEGAL, and so does an address that holds no area (DEDUCED, log 12). -/
def execCtxload (h : Hdr) (a : GReg) (s : State) : Host.Outcome State Fault Refusal :=
  supStep h (fun s => s.withCtxNo a (fun n =>
    match s.ctx n, s.savedAt s.run.sup.ctxrec.toNat with
    | none, some x => (s.ctxLoad x n).retire 8
    | _, _ => s.trap .illegal)) s

/-! ## KNOTOP (R224) -/

/-- The event that g[a] selects: context, name, ALL; a reserved bit traps ILLEGAL, and ALL where it must be 0. -/
def State.knotSel (s : State) (a : GReg) (all : Bool) (k : Nat → Option Nat → State) : State :=
  let x := (s.g a).toNat
  if 2 ^ 27 ≤ x ∨ (bitOf x 26 ∧ !all) then s.trap .illegal
  else k (bits x 25 20) (if bitOf x 26 then none else some (bits x 19 0))
/-- The state word of an event; of a name that no descriptor defines the spec states none (DESIGN CHOICE, log 9). -/
def State.knotWord (s : State) (e : EvKey) : Word :=
  match s.ev e with
  | some x => evWord x
  | none => BitVec.ofNat 64 (leNat (s.freeBytes 0 8))
/-- KNOTOP.rd. -/
def execKnotopRd (h : Hdr) (d a : GReg) (s : State) : Host.Outcome State Fault Refusal :=
  supStep h (fun s => s.knotSel a false (fun c n => (s.setG d (s.knotWord { ctx := c, ev := n.getD 0 })).retire 8)) s
/-- KNOTOP.wr: the next instance number, of a COLLSTART event its sequence number (R169, R224). -/
def execKnotopWr (h : Hdr) (a b : GReg) (s : State) : Host.Outcome State Fault Refusal :=
  supStep h (fun s => s.knotSel a false (fun c n =>
    let i := (s.g b).toNat % 2 ^ 32
    (s.updEv { ctx := c, ev := n.getD 0 } (fun x => if x.desc.kind = .collstart then { x with cseq := i } else { x with inst := i })).retire 8)) s
/-- KNOTOP.purge. -/
def execKnotopPurge (h : Hdr) (a : GReg) (s : State) : Host.Outcome State Fault Refusal :=
  supStep h (fun s => s.knotSel a true (fun c n => (s.onEvents c n .purge).retire 8)) s
/-- KNOTOP.cancel. -/
def execKnotopCancel (h : Hdr) (a : GReg) (s : State) : Host.Outcome State Fault Refusal :=
  supStep h (fun s => s.knotSel a true (fun c n => (s.onEvents c n (.cancel .cancelled)).retire 8)) s

/-! ## IDLE (R225) -/

/-- IDLE: the core stalls until an interrupt is pending, then goes on at the successor. -/
def execIdle (h : Hdr) (s : State) : Host.Outcome State Fault Refusal :=
  supStep h (fun s =>
    if s.ipendOf s.run = 0 then { s with run := { s.run with idle := true } }
    else ({ s with run := { s.run with idle := false } }).retire 8) s

end Sys2Proof.Machine
end

