-- ==== Sys2Proof/Machine/Dispatch.lean ====
section
/-! DEFINITION. What each instruction and each step of the part does: one arm per row of the opcode table. -/

namespace Sys2Proof.Machine

def exec (i : Instr) (s : State) : Host.Outcome State Fault Refusal :=
  match i with
  | .add h d a b => Sys2Proof.Machine.execAdd h d a b s
  | .sub h d a b => Sys2Proof.Machine.execSub h d a b s
  | .and h d a b => Sys2Proof.Machine.execAnd h d a b s
  | .or h d a b => Sys2Proof.Machine.execOr h d a b s
  | .xor h d a b => Sys2Proof.Machine.execXor h d a b s
  | .andn h d a b => Sys2Proof.Machine.execAndn h d a b s
  | .shl h d a b => Sys2Proof.Machine.execShl h d a b s
  | .shr h d a b => Sys2Proof.Machine.execShr h d a b s
  | .sar h d a b => Sys2Proof.Machine.execSar h d a b s
  | .ror h d a b => Sys2Proof.Machine.execRor h d a b s
  | .min h d a b => Sys2Proof.Machine.execMin h d a b s
  | .max h d a b => Sys2Proof.Machine.execMax h d a b s
  | .minu h d a b => Sys2Proof.Machine.execMinu h d a b s
  | .maxu h d a b => Sys2Proof.Machine.execMaxu h d a b s
  | .mul h d a b => Sys2Proof.Machine.execMul h d a b s
  | .mulh h d a b => Sys2Proof.Machine.execMulh h d a b s
  | .mulhu h d a b => Sys2Proof.Machine.execMulhu h d a b s
  | .div h d a b => Sys2Proof.Machine.execDiv h d a b s
  | .divu h d a b => Sys2Proof.Machine.execDivu h d a b s
  | .rem h d a b => Sys2Proof.Machine.execRem h d a b s
  | .remu h d a b => Sys2Proof.Machine.execRemu h d a b s
  | .addw h d a b => Sys2Proof.Machine.execAddw h d a b s
  | .subw h d a b => Sys2Proof.Machine.execSubw h d a b s
  | .mulw h d a b => Sys2Proof.Machine.execMulw h d a b s
  | .clz h d a => Sys2Proof.Machine.execClz h d a s
  | .ctz h d a => Sys2Proof.Machine.execCtz h d a s
  | .popc h d a => Sys2Proof.Machine.execPopc h d a s
  | .bswap h d a => Sys2Proof.Machine.execBswap h d a s
  | .sext h d a n => Sys2Proof.Machine.execSext h d a n s
  | .zext h d a n => Sys2Proof.Machine.execZext h d a n s
  | .bfx h d a lsb width => Sys2Proof.Machine.execBfx h d a lsb width s
  | .bfi h d a lsb width => Sys2Proof.Machine.execBfi h d a lsb width s
  | .addi h d a imm => Sys2Proof.Machine.execAddi h d a imm s
  | .andi h d a imm => Sys2Proof.Machine.execAndi h d a imm s
  | .ori h d a imm => Sys2Proof.Machine.execOri h d a imm s
  | .xori h d a imm => Sys2Proof.Machine.execXori h d a imm s
  | .shli h d a n => Sys2Proof.Machine.execShli h d a n s
  | .shri h d a n => Sys2Proof.Machine.execShri h d a n s
  | .sari h d a n => Sys2Proof.Machine.execSari h d a n s
  | .rori h d a n => Sys2Proof.Machine.execRori h d a n s
  | .mini h d a imm => Sys2Proof.Machine.execMini h d a imm s
  | .maxi h d a imm => Sys2Proof.Machine.execMaxi h d a imm s
  | .addwi h d a imm => Sys2Proof.Machine.execAddwi h d a imm s
  | .movl h d lit => Sys2Proof.Machine.execMovl h d lit s
  | .pcrel h d off => Sys2Proof.Machine.execPcrel h d off s
  | .cmp h cond d a b => Sys2Proof.Machine.execCmp h cond d a b s
  | .cmpi h cond d a imm => Sys2Proof.Machine.execCmpi h cond d a imm s
  | .pand h d a b => Sys2Proof.Machine.execPand h d a b s
  | .por h d a b => Sys2Proof.Machine.execPor h d a b s
  | .pxor h d a b => Sys2Proof.Machine.execPxor h d a b s
  | .pandn h d a b => Sys2Proof.Machine.execPandn h d a b s
  | .pnot h d a => Sys2Proof.Machine.execPnot h d a s
  | .pmov h d a => Sys2Proof.Machine.execPmov h d a s
  | .pset h d v => Sys2Proof.Machine.execPset h d v s
  | .sel h d c a b => Sys2Proof.Machine.execSel h d c a b s
  | .csrr h d csr => Sys2Proof.Machine.execCsrr h d csr s
  | .csrw h csr a => Sys2Proof.Machine.execCsrw h csr a s
  | .csrs h csr a => Sys2Proof.Machine.execCsrs h csr a s
  | .csrc h csr a => Sys2Proof.Machine.execCsrc h csr a s
  | .b h cond a b off => Sys2Proof.Machine.execB h cond a b off s
  | .bp h neg a off => Sys2Proof.Machine.execBp h neg a off s
  | .jmp h off => Sys2Proof.Machine.execJmp h off s
  | .jal h d imm => Sys2Proof.Machine.execJal h d imm s
  | .jalr h d a imm => Sys2Proof.Machine.execJalr h d a imm s
  | .loop h lc src off => Sys2Proof.Machine.execLoop h lc src off s
  | .gset h d a => Sys2Proof.Machine.execGset h d a s
  | .gkill h d => Sys2Proof.Machine.execGkill h d s
  | .qput h d a => Sys2Proof.Machine.execQput h d a s
  | .qget h d a => Sys2Proof.Machine.execQget h d a s
  | .ld h wd d a off => Sys2Proof.Machine.execLd h wd d a off s
  | .ldAq h wd d a off => Sys2Proof.Machine.execLdAq h wd d a off s
  | .st h wd b a off => Sys2Proof.Machine.execSt h wd b a off s
  | .stRl h wd b a off => Sys2Proof.Machine.execStRl h wd b a off s
  | .lds h buf wd d a off => Sys2Proof.Machine.execLds h buf wd d a off s
  | .sts h buf wd b a off => Sys2Proof.Machine.execSts h buf wd b a off s
  | .ldx h buf wd d b a off => Sys2Proof.Machine.execLdx h buf wd d b a off s
  | .stx h buf wd b c a off => Sys2Proof.Machine.execStx h buf wd b c a off s
  | .stxT h buf wd b c a off => Sys2Proof.Machine.execStxT h buf wd b c a off s
  | .amoAdd h dbl d a b off => Sys2Proof.Machine.execAmoAdd h dbl d a b off s
  | .amoAnd h dbl d a b off => Sys2Proof.Machine.execAmoAnd h dbl d a b off s
  | .amoOr h dbl d a b off => Sys2Proof.Machine.execAmoOr h dbl d a b off s
  | .amoXor h dbl d a b off => Sys2Proof.Machine.execAmoXor h dbl d a b off s
  | .amoMin h dbl d a b off => Sys2Proof.Machine.execAmoMin h dbl d a b off s
  | .amoMax h dbl d a b off => Sys2Proof.Machine.execAmoMax h dbl d a b off s
  | .amoMinu h dbl d a b off => Sys2Proof.Machine.execAmoMinu h dbl d a b off s
  | .amoMaxu h dbl d a b off => Sys2Proof.Machine.execAmoMaxu h dbl d a b off s
  | .amoSwap h dbl d a b off => Sys2Proof.Machine.execAmoSwap h dbl d a b off s
  | .cas h dbl d a b c off => Sys2Proof.Machine.execCas h dbl d a b c off s
  | .amoxAdd h buf dbl d b c a off => Sys2Proof.Machine.execAmoxAdd h buf dbl d b c a off s
  | .amoxAnd h buf dbl d b c a off => Sys2Proof.Machine.execAmoxAnd h buf dbl d b c a off s
  | .amoxOr h buf dbl d b c a off => Sys2Proof.Machine.execAmoxOr h buf dbl d b c a off s
  | .amoxXor h buf dbl d b c a off => Sys2Proof.Machine.execAmoxXor h buf dbl d b c a off s
  | .amoxMin h buf dbl d b c a off => Sys2Proof.Machine.execAmoxMin h buf dbl d b c a off s
  | .amoxMax h buf dbl d b c a off => Sys2Proof.Machine.execAmoxMax h buf dbl d b c a off s
  | .amoxMinu h buf dbl d b c a off => Sys2Proof.Machine.execAmoxMinu h buf dbl d b c a off s
  | .amoxMaxu h buf dbl d b c a off => Sys2Proof.Machine.execAmoxMaxu h buf dbl d b c a off s
  | .amoxSwap h buf dbl d b c a off => Sys2Proof.Machine.execAmoxSwap h buf dbl d b c a off s
  | .fence h scope pred succ => Sys2Proof.Machine.execFence h scope pred succ s
  | .pref h a off => Sys2Proof.Machine.execPref h a off s
  | .prefSt h a off => Sys2Proof.Machine.execPrefSt h a off s
  | .mcst h buf wd b c a off => Sys2Proof.Machine.execMcst h buf wd b c a off s
  | .winset h n a => Sys2Proof.Machine.execWinset h n a s
  | .winclr h n => Sys2Proof.Machine.execWinclr h n s
  | .evw h ev b pay c => Sys2Proof.Machine.execEvw h ev b pay c s
  | .evt h ev b pay => Sys2Proof.Machine.execEvt h ev b pay s
  | .chooseW h n a imm c => Sys2Proof.Machine.execChooseW h n a imm c s
  | .chooseT h n a imm => Sys2Proof.Machine.execChooseT h n a imm s
  | .signal h ev b pay => Sys2Proof.Machine.execSignal h ev b pay s
  | .armReg h ev b a => Sys2Proof.Machine.execArmReg h ev b a s
  | .armImm h ev b n => Sys2Proof.Machine.execArmImm h ev b n s
  | .spawn h a imm => Sys2Proof.Machine.execSpawn h a imm s
  | .endTask h => Sys2Proof.Machine.execEndTask h s
  | .yield h c => Sys2Proof.Machine.execYield h c s
  | .bind h ev b a depth => Sys2Proof.Machine.execBind h ev b a depth s
  | .unbind h ev b => Sys2Proof.Machine.execUnbind h ev b s
  | .evseq h d ev b => Sys2Proof.Machine.execEvseq h d ev b s
  | .vadd h l d a b m => Sys2Proof.Machine.execVadd h l d a b m s
  | .vsub h l d a b m => Sys2Proof.Machine.execVsub h l d a b m s
  | .vmul h l d a b m => Sys2Proof.Machine.execVmul h l d a b m s
  | .vmulh h l d a b m => Sys2Proof.Machine.execVmulh h l d a b m s
  | .vmin h l d a b m => Sys2Proof.Machine.execVmin h l d a b m s
  | .vmax h l d a b m => Sys2Proof.Machine.execVmax h l d a b m s
  | .vminu h l d a b m => Sys2Proof.Machine.execVminu h l d a b m s
  | .vmaxu h l d a b m => Sys2Proof.Machine.execVmaxu h l d a b m s
  | .vand h l d a b m => Sys2Proof.Machine.execVand h l d a b m s
  | .vor h l d a b m => Sys2Proof.Machine.execVor h l d a b m s
  | .vxor h l d a b m => Sys2Proof.Machine.execVxor h l d a b m s
  | .vandn h l d a b m => Sys2Proof.Machine.execVandn h l d a b m s
  | .vshl h l d a b m => Sys2Proof.Machine.execVshl h l d a b m s
  | .vshr h l d a b m => Sys2Proof.Machine.execVshr h l d a b m s
  | .vsar h l d a b m => Sys2Proof.Machine.execVsar h l d a b m s
  | .vabs h l d a m => Sys2Proof.Machine.execVabs h l d a m s
  | .vneg h l d a m => Sys2Proof.Machine.execVneg h l d a m s
  | .vaddi h l d a imm m => Sys2Proof.Machine.execVaddi h l d a imm m s
  | .vsubi h l d a imm m => Sys2Proof.Machine.execVsubi h l d a imm m s
  | .vmini h l d a imm m => Sys2Proof.Machine.execVmini h l d a imm m s
  | .vmaxi h l d a imm m => Sys2Proof.Machine.execVmaxi h l d a imm m s
  | .vminui h l d a imm m => Sys2Proof.Machine.execVminui h l d a imm m s
  | .vmaxui h l d a imm m => Sys2Proof.Machine.execVmaxui h l d a imm m s
  | .vandi h l d a imm m => Sys2Proof.Machine.execVandi h l d a imm m s
  | .vori h l d a imm m => Sys2Proof.Machine.execVori h l d a imm m s
  | .vxori h l d a imm m => Sys2Proof.Machine.execVxori h l d a imm m s
  | .vandni h l d a imm m => Sys2Proof.Machine.execVandni h l d a imm m s
  | .vshli h l d a imm m => Sys2Proof.Machine.execVshli h l d a imm m s
  | .vshri h l d a imm m => Sys2Proof.Machine.execVshri h l d a imm m s
  | .vsari h l d a imm m => Sys2Proof.Machine.execVsari h l d a imm m s
  | .vfadd h t rnd d a b m => Sys2Proof.Machine.execVfadd h t rnd d a b m s
  | .vfsub h t rnd d a b m => Sys2Proof.Machine.execVfsub h t rnd d a b m s
  | .vfmul h t rnd d a b m => Sys2Proof.Machine.execVfmul h t rnd d a b m s
  | .vfdiv h t rnd d a b m => Sys2Proof.Machine.execVfdiv h t rnd d a b m s
  | .vfmin h t rnd d a b m => Sys2Proof.Machine.execVfmin h t rnd d a b m s
  | .vfmax h t rnd d a b m => Sys2Proof.Machine.execVfmax h t rnd d a b m s
  | .vfsqrt h t rnd d a m => Sys2Proof.Machine.execVfsqrt h t rnd d a m s
  | .vfabs h t rnd d a m => Sys2Proof.Machine.execVfabs h t rnd d a m s
  | .vfneg h t rnd d a m => Sys2Proof.Machine.execVfneg h t rnd d a m s
  | .vfex2 h t rnd d a m => Sys2Proof.Machine.execVfex2 h t rnd d a m s
  | .vflg2 h t rnd d a m => Sys2Proof.Machine.execVflg2 h t rnd d a m s
  | .vfma h t rnd d a b c m => Sys2Proof.Machine.execVfma h t rnd d a b c m s
  | .vfms h t rnd d a b c m => Sys2Proof.Machine.execVfms h t rnd d a b c m s
  | .vfnma h t rnd d a b c m => Sys2Proof.Machine.execVfnma h t rnd d a b c m s
  | .vcmp h cond t d a b m => Sys2Proof.Machine.execVcmp h cond t d a b m s
  | .vsel h d a b m => Sys2Proof.Machine.execVsel h d a b m s
  | .vperm h l d a b m => Sys2Proof.Machine.execVperm h l d a b m s
  | .vsplat h l d src m => Sys2Proof.Machine.execVsplat h l d src m s
  | .vext h l d a ix => Sys2Proof.Machine.execVext h l d a ix s
  | .vins h l d src ix m => Sys2Proof.Machine.execVins h l d src ix m s
  | .vcvt h src dst part rnd inf d a sc ae mxn m => Sys2Proof.Machine.execVcvt h src dst part rnd inf d a sc ae mxn m s
  | .vld h d a off m => Sys2Proof.Machine.execVld h d a off m s
  | .vst h b a off m => Sys2Proof.Machine.execVst h b a off m s
  | .vlds h buf d a off m => Sys2Proof.Machine.execVlds h buf d a off m s
  | .vsts h buf b a off m => Sys2Proof.Machine.execVsts h buf b a off m s
  | .vgath h sp l d a b off m => Sys2Proof.Machine.execVgath h sp l d a b off m s
  | .vscat h sp l a b c off m => Sys2Proof.Machine.execVscat h sp l a b c off m s
  | .vhadd h t rnd d a m => Sys2Proof.Machine.execVhadd h t rnd d a m s
  | .mand h d a b => Sys2Proof.Machine.execMand h d a b s
  | .mor h d a b => Sys2Proof.Machine.execMor h d a b s
  | .mxor h d a b => Sys2Proof.Machine.execMxor h d a b s
  | .mnot h d a => Sys2Proof.Machine.execMnot h d a s
  | .mset h d imm => Sys2Proof.Machine.execMset h d imm s
  | .vxg h d a ix m => Sys2Proof.Machine.execVxg h d a ix m s
  | .gangOn h => Sys2Proof.Machine.execGangOn h s
  | .gangOff h => Sys2Proof.Machine.execGangOff h s
  | .vmov h d a m => Sys2Proof.Machine.execVmov h d a m s
  | .vmovg h d src m => Sys2Proof.Machine.execVmovg h d src m s
  | .tcfg h d a => Sys2Proof.Machine.execTcfg h d a s
  | .tld h mem d a imm stride lay sc => Sys2Proof.Machine.execTld h mem d a imm stride lay sc s
  | .tst h mem b a imm stride lay => Sys2Proof.Machine.execTst h mem b a imm stride lay s
  | .tzero h d => Sys2Proof.Machine.execTzero h d s
  | .mma h d a b => Sys2Proof.Machine.execMma h d a b s
  | .czero h d => Sys2Proof.Machine.execCzero h d s
  | .cld h d a off => Sys2Proof.Machine.execCld h d a off s
  | .cst h b a off => Sys2Proof.Machine.execCst h b a off s
  | .cdrainWAdd h d ev b c => Sys2Proof.Machine.execCdrainWAdd h d ev b c s
  | .cdrainWMov h d ev b c => Sys2Proof.Machine.execCdrainWMov h d ev b c s
  | .cdrainTAdd h d ev b => Sys2Proof.Machine.execCdrainTAdd h d ev b s
  | .cdrainTMov h d ev b => Sys2Proof.Machine.execCdrainTMov h d ev b s
  | .crecvW h d ev b c => Sys2Proof.Machine.execCrecvW h d ev b c s
  | .crecvT h d ev b => Sys2Proof.Machine.execCrecvT h d ev b s
  | .ccvt h dst rnd inf cb d a sc ae mxn => Sys2Proof.Machine.execCcvt h dst rnd inf cb d a sc ae mxn s
  | .ttr h d a => Sys2Proof.Machine.execTtr h d a s
  | .mxr h d a => Sys2Proof.Machine.execMxr h d a s
  | .mxclr h d => Sys2Proof.Machine.execMxclr h d s
  | .skinit h t a imm => Sys2Proof.Machine.execSkinit h t a imm s
  | .skqadd h b a imm m => Sys2Proof.Machine.execSkqadd h b a imm m s
  | .skhadd h b a imm m => Sys2Proof.Machine.execSkhadd h b a imm m s
  | .skdadd h b a imm m => Sys2Proof.Machine.execSkdadd h b a imm m s
  | .skmadd h b a imm m => Sys2Proof.Machine.execSkmadd h b a imm m s
  | .skmerge h b a imm => Sys2Proof.Machine.execSkmerge h b a imm s
  | .skquant h d b a imm => Sys2Proof.Machine.execSkquant h d b a imm s
  | .sktopk h d b a imm => Sys2Proof.Machine.execSktopk h d b a imm s
  | .skcard h d a imm => Sys2Proof.Machine.execSkcard h d a imm s
  | .skmom h d b a imm => Sys2Proof.Machine.execSkmom h d b a imm s
  | .cpy h d a imm => Sys2Proof.Machine.execCpy h d a imm s
  | .cpyT h d a imm => Sys2Proof.Machine.execCpyT h d a imm s
  | .cpysk h d b a imm => Sys2Proof.Machine.execCpysk h d b a imm s
  | .coll h d a imm => Sys2Proof.Machine.execColl h d a imm s
  | .txe h d a imm => Sys2Proof.Machine.execTxe h d a imm s
  | .txd h d a imm => Sys2Proof.Machine.execTxd h d a imm s
  | .vocab h d a imm => Sys2Proof.Machine.execVocab h d a imm s
  | .trap h imm => Sys2Proof.Machine.execTrap h imm s
  | .brk h imm => Sys2Proof.Machine.execBrk h imm s
  | .eret h => Sys2Proof.Machine.execEret h s
  | .xlinv h => Sys2Proof.Machine.execXlinv h s
  | .xlinvCtx h a => Sys2Proof.Machine.execXlinvCtx h a s
  | .xlinvVa h a b => Sys2Proof.Machine.execXlinvVa h a b s
  | .ctxsave h a => Sys2Proof.Machine.execCtxsave h a s
  | .ctxload h a => Sys2Proof.Machine.execCtxload h a s
  | .knotopRd h d a => Sys2Proof.Machine.execKnotopRd h d a s
  | .knotopWr h a b => Sys2Proof.Machine.execKnotopWr h a b s
  | .knotopPurge h a => Sys2Proof.Machine.execKnotopPurge h a s
  | .knotopCancel h a => Sys2Proof.Machine.execKnotopCancel h a s
  | .idle h => Sys2Proof.Machine.execIdle h s
  | .nop => Sys2Proof.Machine.execNop s
  | .nopX => Sys2Proof.Machine.execNopX s
  | .nopL => Sys2Proof.Machine.execNopL s
  | .remoteRequest => Sys2Proof.Machine.execRemoteRequest s
  | .remoteReply => Sys2Proof.Machine.execRemoteReply s
  | .offer => Sys2Proof.Machine.execOffer s
  | .claim => Sys2Proof.Machine.execClaim s
  | .grant => Sys2Proof.Machine.execGrant s
  | .revoke => Sys2Proof.Machine.execRevoke s
  | .released => Sys2Proof.Machine.execReleased s
  | .release => Sys2Proof.Machine.execRelease s
  | .refuse => Sys2Proof.Machine.execRefuse s
  | .commit => Sys2Proof.Machine.execCommit s
  | .withdraw => Sys2Proof.Machine.execWithdraw s
  | .tilePayload => Sys2Proof.Machine.execTilePayload s
  | .deadline => Sys2Proof.Machine.execDeadline s
  | .agedSweep => Sys2Proof.Machine.execAgedSweep s
  | .fullBackoff => Sys2Proof.Machine.execFullBackoff s
  | .budgetExpiry => Sys2Proof.Machine.execBudgetExpiry s
  | .combiningLineTimeout => Sys2Proof.Machine.execCombiningLineTimeout s
  | .taskDispatch => Sys2Proof.Machine.execTaskDispatch s
  | .steal => Sys2Proof.Machine.execSteal s
  | .handlerActivation => Sys2Proof.Machine.execHandlerActivation s
  | .copyJob => Sys2Proof.Machine.execCopyJob s
  | .jobTranslationResume => Sys2Proof.Machine.execJobTranslationResume s
  | .collective => Sys2Proof.Machine.execCollective s
  | .abortColl => Sys2Proof.Machine.execAbort s
  | .collectiveDeadline => Sys2Proof.Machine.execCollectiveDeadline s
  | .userRoutine => Sys2Proof.Machine.execUserRoutine s
  | .userRoutineOverrun => Sys2Proof.Machine.execUserRoutineOverrun s
  | .txeJob => Sys2Proof.Machine.execTxeJob s
  | .txdJob => Sys2Proof.Machine.execTxdJob s
  | .vocabJob => Sys2Proof.Machine.execVocabJob s
  | .pageWalk => Sys2Proof.Machine.execPageWalk s
  | .textFrame => Sys2Proof.Machine.execTextFrame s
  | .tokenChunk => Sys2Proof.Machine.execTokenChunk s
  | .missingFrameTimeout => Sys2Proof.Machine.execMissingFrameTimeout s
  | .openNotice => Sys2Proof.Machine.execOpenNotice s
  | .endNotice => Sys2Proof.Machine.execEndNotice s
  | .dropNotice => Sys2Proof.Machine.execDropNotice s
  | .detokeniseChunk => Sys2Proof.Machine.execDetokeniseChunk s
  | .kick => Sys2Proof.Machine.execKick s
  | .launchAccept => Sys2Proof.Machine.execLaunchAccept s
  | .launchStart => Sys2Proof.Machine.execLaunchStart s
  | .launchComplete => Sys2Proof.Machine.execLaunchComplete s
  | .reset => Sys2Proof.Machine.execReset s
  | .ctxCreate => Sys2Proof.Machine.execCtxCreate s
  | .ctxDestroy => Sys2Proof.Machine.execCtxDestroy s
  | .queueCfg => Sys2Proof.Machine.execQueueCfg s
  | .launchEnd => Sys2Proof.Machine.execLaunchEnd s
  | .textAttach => Sys2Proof.Machine.execTextAttach s
  | .vocabLoad => Sys2Proof.Machine.execVocabLoad s
  | .trackStart => Sys2Proof.Machine.execTrackStart s
  | .harvest => Sys2Proof.Machine.execHarvest s
  | .quiesce => Sys2Proof.Machine.execQuiesce s
  | .save => Sys2Proof.Machine.execSave s
  | .load => Sys2Proof.Machine.execLoad s
  | .resume => Sys2Proof.Machine.execResume s
  | .ckpt => Sys2Proof.Machine.execCkpt s
  | .ckptLoad => Sys2Proof.Machine.execCkptLoad s
  | .recover => Sys2Proof.Machine.execRecover s
  | .trapnext => Sys2Proof.Machine.execTrapnext s
  | .retry => Sys2Proof.Machine.execRetry s
  | .kill => Sys2Proof.Machine.execKill s
  | .host => Sys2Proof.Machine.execHost s
  | .preempt => Sys2Proof.Machine.execPreempt s
  | .preemptResume => Sys2Proof.Machine.execPreemptResume s
  | .hclrEcc => Sys2Proof.Machine.execHclrEcc s
  | .hclrPoison => Sys2Proof.Machine.execHclrPoison s
  | .registerWrite => Sys2Proof.Machine.execRegisterWrite s
  | .interrupt => Sys2Proof.Machine.execInterrupt s
  | .stageEvaluation => Sys2Proof.Machine.execStageEvaluation s
  | .graft => Sys2Proof.Machine.execGraft s
  | .placementGeneration => Sys2Proof.Machine.execPlacementGeneration s
  | .packetResend => Sys2Proof.Machine.execPacketResend s
  | .agePromotion => Sys2Proof.Machine.execAgePromotion s
  | .cxlMemWrite => Sys2Proof.Machine.execCxlMemWrite s
  | .cxlMemRead => Sys2Proof.Machine.execCxlMemRead s
  | .heartwoodBoot => Sys2Proof.Machine.execHeartwoodBoot s
  | .getReport => Sys2Proof.Machine.execGetReport s
  | .setTenantKey => Sys2Proof.Machine.execSetTenantKey s
  | .getIdentity => Sys2Proof.Machine.execGetIdentity s
  | .laneMarginFail => Sys2Proof.Machine.execLaneMarginFail s
  | .linkTimeout => Sys2Proof.Machine.execLinkTimeout s
  | .linkRetrain => Sys2Proof.Machine.execLinkRetrain s
  | .flitReplay => Sys2Proof.Machine.execFlitReplay s
  | .monitorSample => Sys2Proof.Machine.execMonitorSample s
  | .patrolScrub => Sys2Proof.Machine.execPatrolScrub s
  | .powerCapWindow => Sys2Proof.Machine.execPowerCapWindow s
  | .thermalThrottle => Sys2Proof.Machine.execThermalThrottle s
  | .thermalTrip => Sys2Proof.Machine.execThermalTrip s
  | .healthWindowUpdate => Sys2Proof.Machine.execHealthWindowUpdate s
  | .unassignedOpcode => Sys2Proof.Machine.execUnassignedOpcode s
  | .globalAccessPerformed => Sys2Proof.Machine.execGlobalAccessPerformed s
  | .globalAccessReply => Sys2Proof.Machine.execGlobalAccessReply s
  | .ultraEthernetMessage => Sys2Proof.Machine.execUltraEthernetMessage s
  | .coreFailure => Sys2Proof.Machine.execCoreFailure s
  | .hostLinkDown => Sys2Proof.Machine.execHostLinkDown s
  | .linkStepDone => Sys2Proof.Machine.execLinkStepDone s

end Sys2Proof.Machine
end

