-- ==== Sys2Proof/Machine/Uses.lean ====
section
/-! DEFINITION. Which general registers an instruction reads and writes when it executes, for the stalls of R129, R134
and R140 and the stream order of R126, and which instructions a crown core runs (R303). -/

namespace Sys2Proof.Machine

/-- Registers a scalar operand of a command names. -/
def srcRegs (x : ScalarSrc) : List GReg :=
  match x with
  | .g r => [r]
  | .q _ => []
/-- Registers the operands of VMOVG name. -/
def pairRegs (x : VmovgSrc) : List GReg :=
  match x with
  | .g x y => [x, y]
  | .q _ _ => []
/-- Registers the count operand of LOOP names. -/
def loopRegs (x : LoopSrc) : List GReg :=
  match x with
  | .reg a => [a]
  | .imm _ => []
/-- The base register of a payload operand. -/
def payRegs (p : Option PayOp) : List GReg := (p.map (fun p => [p.a])).getD []
/-- General registers that an instruction reads. -/
def gReads (i : Instr) : List GReg :=
  match i with
  | .add _ _ a b => [a, b]
  | .sub _ _ a b => [a, b]
  | .and _ _ a b => [a, b]
  | .or _ _ a b => [a, b]
  | .xor _ _ a b => [a, b]
  | .andn _ _ a b => [a, b]
  | .shl _ _ a b => [a, b]
  | .shr _ _ a b => [a, b]
  | .sar _ _ a b => [a, b]
  | .ror _ _ a b => [a, b]
  | .min _ _ a b => [a, b]
  | .max _ _ a b => [a, b]
  | .minu _ _ a b => [a, b]
  | .maxu _ _ a b => [a, b]
  | .mul _ _ a b => [a, b]
  | .mulh _ _ a b => [a, b]
  | .mulhu _ _ a b => [a, b]
  | .div _ _ a b => [a, b]
  | .divu _ _ a b => [a, b]
  | .rem _ _ a b => [a, b]
  | .remu _ _ a b => [a, b]
  | .addw _ _ a b => [a, b]
  | .subw _ _ a b => [a, b]
  | .mulw _ _ a b => [a, b]
  | .clz _ _ a => [a]
  | .ctz _ _ a => [a]
  | .popc _ _ a => [a]
  | .bswap _ _ a => [a]
  | .sext _ _ a .. => [a]
  | .zext _ _ a .. => [a]
  | .bfx _ _ a .. => [a]
  | .bfi _ d a .. => [d, a]
  | .addi _ _ a .. => [a]
  | .andi _ _ a .. => [a]
  | .ori _ _ a .. => [a]
  | .xori _ _ a .. => [a]
  | .shli _ _ a .. => [a]
  | .shri _ _ a .. => [a]
  | .sari _ _ a .. => [a]
  | .rori _ _ a .. => [a]
  | .mini _ _ a .. => [a]
  | .maxi _ _ a .. => [a]
  | .addwi _ _ a .. => [a]
  | .movl .. => []
  | .pcrel .. => []
  | .cmp _ _ _ a b => [a, b]
  | .cmpi _ _ _ a .. => [a]
  | .pand .. => []
  | .por .. => []
  | .pxor .. => []
  | .pandn .. => []
  | .pnot .. => []
  | .pmov .. => []
  | .pset .. => []
  | .sel _ _ _ a b => [a, b]
  | .csrr .. => []
  | .csrw _ _ a => [a]
  | .csrs _ _ a => [a]
  | .csrc _ _ a => [a]
  | .b _ _ a b .. => [a, b]
  | .bp .. => []
  | .jmp .. => []
  | .jal .. => []
  | .jalr _ _ a .. => [a]
  | .loop _ _ src .. => loopRegs src
  | .gset .. => []
  | .gkill .. => []
  | .qput _ _ a => [a]
  | .qget .. => []
  | .ld _ _ _ a .. => [a]
  | .ldAq _ _ _ a .. => [a]
  | .st _ _ b a .. => [b, a]
  | .stRl _ _ b a .. => [b, a]
  | .lds _ _ _ _ a .. => [a]
  | .sts _ _ _ b a .. => [b, a]
  | .ldx _ _ _ _ b a .. => [b, a]
  | .stx _ _ _ b c a .. => [b, c, a]
  | .stxT _ _ _ b c a .. => [b, c, a]
  | .amoAdd _ _ _ a b .. => [a, b]
  | .amoAnd _ _ _ a b .. => [a, b]
  | .amoOr _ _ _ a b .. => [a, b]
  | .amoXor _ _ _ a b .. => [a, b]
  | .amoMin _ _ _ a b .. => [a, b]
  | .amoMax _ _ _ a b .. => [a, b]
  | .amoMinu _ _ _ a b .. => [a, b]
  | .amoMaxu _ _ _ a b .. => [a, b]
  | .amoSwap _ _ _ a b .. => [a, b]
  | .cas _ _ _ a b c .. => [a, b, c]
  | .amoxAdd _ _ _ _ b c a .. => [b, c, a]
  | .amoxAnd _ _ _ _ b c a .. => [b, c, a]
  | .amoxOr _ _ _ _ b c a .. => [b, c, a]
  | .amoxXor _ _ _ _ b c a .. => [b, c, a]
  | .amoxMin _ _ _ _ b c a .. => [b, c, a]
  | .amoxMax _ _ _ _ b c a .. => [b, c, a]
  | .amoxMinu _ _ _ _ b c a .. => [b, c, a]
  | .amoxMaxu _ _ _ _ b c a .. => [b, c, a]
  | .amoxSwap _ _ _ _ b c a .. => [b, c, a]
  | .fence .. => []
  | .pref _ a .. => [a]
  | .prefSt _ a .. => [a]
  | .mcst _ _ wd b c a .. => if wd = .q then [b, a] else [b, c, a]
  | .winset _ _ a => [a]
  | .winclr .. => []
  | .evw _ _ b pay c => [b, c] ++ payRegs pay
  | .evt _ _ b pay => [b] ++ payRegs pay
  | .chooseW _ _ a _ c => [a, c]
  | .chooseT _ _ a .. => [a]
  | .signal _ _ b pay => [b] ++ payRegs pay
  | .armReg _ _ b a => [b, a]
  | .armImm _ _ b .. => [b]
  | .spawn _ a .. => [a]
  | .endTask .. => []
  | .yield _ c => [c]
  | .bind _ _ b a .. => [b, a]
  | .unbind _ _ b => [b]
  | .evseq _ _ _ b => [b]
  | .vadd .. => []
  | .vsub .. => []
  | .vmul .. => []
  | .vmulh .. => []
  | .vmin .. => []
  | .vmax .. => []
  | .vminu .. => []
  | .vmaxu .. => []
  | .vand .. => []
  | .vor .. => []
  | .vxor .. => []
  | .vandn .. => []
  | .vshl .. => []
  | .vshr .. => []
  | .vsar .. => []
  | .vabs .. => []
  | .vneg .. => []
  | .vaddi .. => []
  | .vsubi .. => []
  | .vmini .. => []
  | .vmaxi .. => []
  | .vminui .. => []
  | .vmaxui .. => []
  | .vandi .. => []
  | .vori .. => []
  | .vxori .. => []
  | .vandni .. => []
  | .vshli .. => []
  | .vshri .. => []
  | .vsari .. => []
  | .vfadd .. => []
  | .vfsub .. => []
  | .vfmul .. => []
  | .vfdiv .. => []
  | .vfmin .. => []
  | .vfmax .. => []
  | .vfsqrt .. => []
  | .vfabs .. => []
  | .vfneg .. => []
  | .vfex2 .. => []
  | .vflg2 .. => []
  | .vfma .. => []
  | .vfms .. => []
  | .vfnma .. => []
  | .vcmp .. => []
  | .vsel .. => []
  | .vperm .. => []
  | .vsplat _ _ _ src .. => srcRegs src
  | .vext .. => []
  | .vins _ _ _ src .. => srcRegs src
  | .vcvt _ _ _ _ _ _ _ _ sc .. => srcRegs sc
  | .vld _ _ a .. => [a]
  | .vst _ _ a .. => [a]
  | .vlds _ _ _ a .. => [a]
  | .vsts _ _ _ a .. => [a]
  | .vgath _ _ _ _ a .. => [a]
  | .vscat _ _ _ a .. => [a]
  | .vhadd .. => []
  | .mand .. => []
  | .mor .. => []
  | .mxor .. => []
  | .mnot .. => []
  | .mset .. => []
  | .vxg .. => []
  | .gangOn .. => []
  | .gangOff .. => []
  | .vmov .. => []
  | .vmovg _ _ src .. => pairRegs src
  | .tcfg _ _ a => [a]
  | .tld _ _ _ a .. => [a]
  | .tst _ _ _ a .. => [a]
  | .tzero .. => []
  | .mma .. => []
  | .czero .. => []
  | .cld _ _ a .. => [a]
  | .cst _ _ a .. => [a]
  | .cdrainWAdd _ _ _ b c => [b, c]
  | .cdrainWMov _ _ _ b c => [b, c]
  | .cdrainTAdd _ _ _ b => [b]
  | .cdrainTMov _ _ _ b => [b]
  | .crecvW _ _ _ b c => [b, c]
  | .crecvT _ _ _ b => [b]
  | .ccvt _ _ _ _ _ _ _ sc .. => srcRegs sc
  | .ttr .. => []
  | .mxr .. => []
  | .mxclr .. => []
  | .skinit _ _ a .. => [a]
  | .skqadd _ _ a .. => [a]
  | .skhadd _ _ a .. => [a]
  | .skdadd _ _ a .. => [a]
  | .skmadd _ _ a .. => [a]
  | .skmerge _ b a .. => [b, a]
  | .skquant _ _ b a .. => [b, a]
  | .sktopk _ _ b a .. => [b, a]
  | .skcard _ _ a .. => [a]
  | .skmom _ _ b a .. => [b, a]
  | .cpy _ _ a .. => [a]
  | .cpyT _ _ a .. => [a]
  | .cpysk _ _ b a .. => [b, a]
  | .coll _ _ a .. => [a]
  | .txe _ _ a .. => [a]
  | .txd _ _ a .. => [a]
  | .vocab _ _ a .. => [a]
  | .trap .. => []
  | .brk .. => []
  | .eret .. => []
  | .xlinv .. => []
  | .xlinvCtx _ a => [a]
  | .xlinvVa _ a b => [a, b]
  | .ctxsave _ a => [a]
  | .ctxload _ a => [a]
  | .knotopRd _ _ a => [a]
  | .knotopWr _ a b => [a, b]
  | .knotopPurge _ a => [a]
  | .knotopCancel _ a => [a]
  | .idle .. => []
  | .nop => []
  | .nopX => []
  | .nopL => []
  | .remoteRequest => []
  | .remoteReply => []
  | .offer => []
  | .claim => []
  | .grant => []
  | .revoke => []
  | .released => []
  | .release => []
  | .refuse => []
  | .commit => []
  | .withdraw => []
  | .tilePayload => []
  | .deadline => []
  | .agedSweep => []
  | .fullBackoff => []
  | .budgetExpiry => []
  | .combiningLineTimeout => []
  | .taskDispatch => []
  | .steal => []
  | .handlerActivation => []
  | .copyJob => []
  | .jobTranslationResume => []
  | .collective => []
  | .abortColl => []
  | .collectiveDeadline => []
  | .userRoutine => []
  | .userRoutineOverrun => []
  | .txeJob => []
  | .txdJob => []
  | .vocabJob => []
  | .pageWalk => []
  | .textFrame => []
  | .tokenChunk => []
  | .missingFrameTimeout => []
  | .openNotice => []
  | .endNotice => []
  | .dropNotice => []
  | .detokeniseChunk => []
  | .kick => []
  | .launchAccept => []
  | .launchStart => []
  | .launchComplete => []
  | .reset => []
  | .ctxCreate => []
  | .ctxDestroy => []
  | .queueCfg => []
  | .launchEnd => []
  | .textAttach => []
  | .vocabLoad => []
  | .trackStart => []
  | .harvest => []
  | .quiesce => []
  | .save => []
  | .load => []
  | .resume => []
  | .ckpt => []
  | .ckptLoad => []
  | .recover => []
  | .trapnext => []
  | .retry => []
  | .kill => []
  | .host => []
  | .preempt => []
  | .preemptResume => []
  | .hclrEcc => []
  | .hclrPoison => []
  | .registerWrite => []
  | .interrupt => []
  | .stageEvaluation => []
  | .graft => []
  | .placementGeneration => []
  | .packetResend => []
  | .agePromotion => []
  | .cxlMemWrite => []
  | .cxlMemRead => []
  | .heartwoodBoot => []
  | .getReport => []
  | .setTenantKey => []
  | .getIdentity => []
  | .laneMarginFail => []
  | .linkTimeout => []
  | .linkRetrain => []
  | .flitReplay => []
  | .monitorSample => []
  | .patrolScrub => []
  | .powerCapWindow => []
  | .thermalThrottle => []
  | .thermalTrip => []
  | .healthWindowUpdate => []
  | .unassignedOpcode => []
  | .globalAccessPerformed => []
  | .globalAccessReply => []
  | .ultraEthernetMessage => []
  | .coreFailure => []
  | .hostLinkDown => []
  | .linkStepDone => []
/-- General registers that an instruction writes. -/
def gWrites (i : Instr) : List GReg :=
  match i with
  | .add _ d .. => [d]
  | .sub _ d .. => [d]
  | .and _ d .. => [d]
  | .or _ d .. => [d]
  | .xor _ d .. => [d]
  | .andn _ d .. => [d]
  | .shl _ d .. => [d]
  | .shr _ d .. => [d]
  | .sar _ d .. => [d]
  | .ror _ d .. => [d]
  | .min _ d .. => [d]
  | .max _ d .. => [d]
  | .minu _ d .. => [d]
  | .maxu _ d .. => [d]
  | .mul _ d .. => [d]
  | .mulh _ d .. => [d]
  | .mulhu _ d .. => [d]
  | .div _ d .. => [d]
  | .divu _ d .. => [d]
  | .rem _ d .. => [d]
  | .remu _ d .. => [d]
  | .addw _ d .. => [d]
  | .subw _ d .. => [d]
  | .mulw _ d .. => [d]
  | .clz _ d .. => [d]
  | .ctz _ d .. => [d]
  | .popc _ d .. => [d]
  | .bswap _ d .. => [d]
  | .sext _ d .. => [d]
  | .zext _ d .. => [d]
  | .bfx _ d .. => [d]
  | .bfi _ d .. => [d]
  | .addi _ d .. => [d]
  | .andi _ d .. => [d]
  | .ori _ d .. => [d]
  | .xori _ d .. => [d]
  | .shli _ d .. => [d]
  | .shri _ d .. => [d]
  | .sari _ d .. => [d]
  | .rori _ d .. => [d]
  | .mini _ d .. => [d]
  | .maxi _ d .. => [d]
  | .addwi _ d .. => [d]
  | .movl _ d .. => [d]
  | .pcrel _ d .. => [d]
  | .cmp .. => []
  | .cmpi .. => []
  | .pand .. => []
  | .por .. => []
  | .pxor .. => []
  | .pandn .. => []
  | .pnot .. => []
  | .pmov .. => []
  | .pset .. => []
  | .sel _ d .. => [d]
  | .csrr _ d .. => [d]
  | .csrw .. => []
  | .csrs .. => []
  | .csrc .. => []
  | .b .. => []
  | .bp .. => []
  | .jmp .. => []
  | .jal _ d .. => [d]
  | .jalr _ d .. => [d]
  | .loop .. => []
  | .gset .. => []
  | .gkill .. => []
  | .qput .. => []
  | .qget _ d .. => [d]
  | .ld _ _ d .. => [d]
  | .ldAq _ _ d .. => [d]
  | .st .. => []
  | .stRl .. => []
  | .lds _ _ _ d .. => [d]
  | .sts .. => []
  | .ldx _ _ _ d .. => [d]
  | .stx .. => []
  | .stxT .. => []
  | .amoAdd _ _ d .. => [d]
  | .amoAnd _ _ d .. => [d]
  | .amoOr _ _ d .. => [d]
  | .amoXor _ _ d .. => [d]
  | .amoMin _ _ d .. => [d]
  | .amoMax _ _ d .. => [d]
  | .amoMinu _ _ d .. => [d]
  | .amoMaxu _ _ d .. => [d]
  | .amoSwap _ _ d .. => [d]
  | .cas _ _ d .. => [d]
  | .amoxAdd _ _ _ d .. => [d]
  | .amoxAnd _ _ _ d .. => [d]
  | .amoxOr _ _ _ d .. => [d]
  | .amoxXor _ _ _ d .. => [d]
  | .amoxMin _ _ _ d .. => [d]
  | .amoxMax _ _ _ d .. => [d]
  | .amoxMinu _ _ _ d .. => [d]
  | .amoxMaxu _ _ _ d .. => [d]
  | .amoxSwap _ _ _ d .. => [d]
  | .fence .. => []
  | .pref .. => []
  | .prefSt .. => []
  | .mcst .. => []
  | .winset .. => []
  | .winclr .. => []
  | .evw .. => []
  | .evt .. => []
  | .chooseW .. => []
  | .chooseT .. => []
  | .signal .. => []
  | .armReg .. => []
  | .armImm .. => []
  | .spawn .. => []
  | .endTask .. => []
  | .yield .. => []
  | .bind .. => []
  | .unbind .. => []
  | .evseq _ d .. => [d]
  | .vadd .. => []
  | .vsub .. => []
  | .vmul .. => []
  | .vmulh .. => []
  | .vmin .. => []
  | .vmax .. => []
  | .vminu .. => []
  | .vmaxu .. => []
  | .vand .. => []
  | .vor .. => []
  | .vxor .. => []
  | .vandn .. => []
  | .vshl .. => []
  | .vshr .. => []
  | .vsar .. => []
  | .vabs .. => []
  | .vneg .. => []
  | .vaddi .. => []
  | .vsubi .. => []
  | .vmini .. => []
  | .vmaxi .. => []
  | .vminui .. => []
  | .vmaxui .. => []
  | .vandi .. => []
  | .vori .. => []
  | .vxori .. => []
  | .vandni .. => []
  | .vshli .. => []
  | .vshri .. => []
  | .vsari .. => []
  | .vfadd .. => []
  | .vfsub .. => []
  | .vfmul .. => []
  | .vfdiv .. => []
  | .vfmin .. => []
  | .vfmax .. => []
  | .vfsqrt .. => []
  | .vfabs .. => []
  | .vfneg .. => []
  | .vfex2 .. => []
  | .vflg2 .. => []
  | .vfma .. => []
  | .vfms .. => []
  | .vfnma .. => []
  | .vcmp .. => []
  | .vsel .. => []
  | .vperm .. => []
  | .vsplat .. => []
  | .vext _ _ d .. => [d]
  | .vins .. => []
  | .vcvt .. => []
  | .vld .. => []
  | .vst .. => []
  | .vlds .. => []
  | .vsts .. => []
  | .vgath .. => []
  | .vscat .. => []
  | .vhadd .. => []
  | .mand .. => []
  | .mor .. => []
  | .mxor .. => []
  | .mnot .. => []
  | .mset .. => []
  | .vxg .. => []
  | .gangOn .. => []
  | .gangOff .. => []
  | .vmov .. => []
  | .vmovg .. => []
  | .tcfg .. => []
  | .tld .. => []
  | .tst .. => []
  | .tzero .. => []
  | .mma .. => []
  | .czero .. => []
  | .cld .. => []
  | .cst .. => []
  | .cdrainWAdd .. => []
  | .cdrainWMov .. => []
  | .cdrainTAdd .. => []
  | .cdrainTMov .. => []
  | .crecvW .. => []
  | .crecvT .. => []
  | .ccvt .. => []
  | .ttr .. => []
  | .mxr _ d .. => [d]
  | .mxclr .. => []
  | .skinit .. => []
  | .skqadd .. => []
  | .skhadd .. => []
  | .skdadd .. => []
  | .skmadd .. => []
  | .skmerge .. => []
  | .skquant _ d .. => [d]
  | .sktopk _ d .. => [d]
  | .skcard _ d .. => [d]
  | .skmom _ d .. => [d]
  | .cpy _ d .. => [d]
  | .cpyT .. => []
  | .cpysk _ d .. => [d]
  | .coll _ d .. => [d]
  | .txe _ d .. => [d]
  | .txd _ d .. => [d]
  | .vocab _ d .. => [d]
  | .trap .. => []
  | .brk .. => []
  | .eret .. => []
  | .xlinv .. => []
  | .xlinvCtx .. => []
  | .xlinvVa .. => []
  | .ctxsave .. => []
  | .ctxload .. => []
  | .knotopRd _ d .. => [d]
  | .knotopWr .. => []
  | .knotopPurge .. => []
  | .knotopCancel .. => []
  | .idle .. => []
  | .nop => []
  | .nopX => []
  | .nopL => []
  | .remoteRequest => []
  | .remoteReply => []
  | .offer => []
  | .claim => []
  | .grant => []
  | .revoke => []
  | .released => []
  | .release => []
  | .refuse => []
  | .commit => []
  | .withdraw => []
  | .tilePayload => []
  | .deadline => []
  | .agedSweep => []
  | .fullBackoff => []
  | .budgetExpiry => []
  | .combiningLineTimeout => []
  | .taskDispatch => []
  | .steal => []
  | .handlerActivation => []
  | .copyJob => []
  | .jobTranslationResume => []
  | .collective => []
  | .abortColl => []
  | .collectiveDeadline => []
  | .userRoutine => []
  | .userRoutineOverrun => []
  | .txeJob => []
  | .txdJob => []
  | .vocabJob => []
  | .pageWalk => []
  | .textFrame => []
  | .tokenChunk => []
  | .missingFrameTimeout => []
  | .openNotice => []
  | .endNotice => []
  | .dropNotice => []
  | .detokeniseChunk => []
  | .kick => []
  | .launchAccept => []
  | .launchStart => []
  | .launchComplete => []
  | .reset => []
  | .ctxCreate => []
  | .ctxDestroy => []
  | .queueCfg => []
  | .launchEnd => []
  | .textAttach => []
  | .vocabLoad => []
  | .trackStart => []
  | .harvest => []
  | .quiesce => []
  | .save => []
  | .load => []
  | .resume => []
  | .ckpt => []
  | .ckptLoad => []
  | .recover => []
  | .trapnext => []
  | .retry => []
  | .kill => []
  | .host => []
  | .preempt => []
  | .preemptResume => []
  | .hclrEcc => []
  | .hclrPoison => []
  | .registerWrite => []
  | .interrupt => []
  | .stageEvaluation => []
  | .graft => []
  | .placementGeneration => []
  | .packetResend => []
  | .agePromotion => []
  | .cxlMemWrite => []
  | .cxlMemRead => []
  | .heartwoodBoot => []
  | .getReport => []
  | .setTenantKey => []
  | .getIdentity => []
  | .laneMarginFail => []
  | .linkTimeout => []
  | .linkRetrain => []
  | .flitReplay => []
  | .monitorSample => []
  | .patrolScrub => []
  | .powerCapWindow => []
  | .thermalThrottle => []
  | .thermalTrip => []
  | .healthWindowUpdate => []
  | .unassignedOpcode => []
  | .globalAccessPerformed => []
  | .globalAccessReply => []
  | .ultraEthernetMessage => []
  | .coreFailure => []
  | .hostLinkDown => []
  | .linkStepDone => []
/-- The fetch units of V, T and C registers that an instruction names (R229). -/
def fileUnits (i : Instr) : BitVec 28 :=
  match i with
  | .vadd _ _ d a b .. => vUnit d ||| vUnit a ||| vUnit b
  | .vsub _ _ d a b .. => vUnit d ||| vUnit a ||| vUnit b
  | .vmul _ _ d a b .. => vUnit d ||| vUnit a ||| vUnit b
  | .vmulh _ _ d a b .. => vUnit d ||| vUnit a ||| vUnit b
  | .vmin _ _ d a b .. => vUnit d ||| vUnit a ||| vUnit b
  | .vmax _ _ d a b .. => vUnit d ||| vUnit a ||| vUnit b
  | .vminu _ _ d a b .. => vUnit d ||| vUnit a ||| vUnit b
  | .vmaxu _ _ d a b .. => vUnit d ||| vUnit a ||| vUnit b
  | .vand _ _ d a b .. => vUnit d ||| vUnit a ||| vUnit b
  | .vor _ _ d a b .. => vUnit d ||| vUnit a ||| vUnit b
  | .vxor _ _ d a b .. => vUnit d ||| vUnit a ||| vUnit b
  | .vandn _ _ d a b .. => vUnit d ||| vUnit a ||| vUnit b
  | .vshl _ _ d a b .. => vUnit d ||| vUnit a ||| vUnit b
  | .vshr _ _ d a b .. => vUnit d ||| vUnit a ||| vUnit b
  | .vsar _ _ d a b .. => vUnit d ||| vUnit a ||| vUnit b
  | .vabs _ _ d a .. => vUnit d ||| vUnit a
  | .vneg _ _ d a .. => vUnit d ||| vUnit a
  | .vaddi _ _ d a .. => vUnit d ||| vUnit a
  | .vsubi _ _ d a .. => vUnit d ||| vUnit a
  | .vmini _ _ d a .. => vUnit d ||| vUnit a
  | .vmaxi _ _ d a .. => vUnit d ||| vUnit a
  | .vminui _ _ d a .. => vUnit d ||| vUnit a
  | .vmaxui _ _ d a .. => vUnit d ||| vUnit a
  | .vandi _ _ d a .. => vUnit d ||| vUnit a
  | .vori _ _ d a .. => vUnit d ||| vUnit a
  | .vxori _ _ d a .. => vUnit d ||| vUnit a
  | .vandni _ _ d a .. => vUnit d ||| vUnit a
  | .vshli _ _ d a .. => vUnit d ||| vUnit a
  | .vshri _ _ d a .. => vUnit d ||| vUnit a
  | .vsari _ _ d a .. => vUnit d ||| vUnit a
  | .vfadd _ _ _ d a b .. => vUnit d ||| vUnit a ||| vUnit b
  | .vfsub _ _ _ d a b .. => vUnit d ||| vUnit a ||| vUnit b
  | .vfmul _ _ _ d a b .. => vUnit d ||| vUnit a ||| vUnit b
  | .vfdiv _ _ _ d a b .. => vUnit d ||| vUnit a ||| vUnit b
  | .vfmin _ _ _ d a b .. => vUnit d ||| vUnit a ||| vUnit b
  | .vfmax _ _ _ d a b .. => vUnit d ||| vUnit a ||| vUnit b
  | .vfsqrt _ _ _ d a .. => vUnit d ||| vUnit a
  | .vfabs _ _ _ d a .. => vUnit d ||| vUnit a
  | .vfneg _ _ _ d a .. => vUnit d ||| vUnit a
  | .vfex2 _ _ _ d a .. => vUnit d ||| vUnit a
  | .vflg2 _ _ _ d a .. => vUnit d ||| vUnit a
  | .vfma _ _ _ d a b c .. => vUnit d ||| vUnit a ||| vUnit b ||| vUnit c
  | .vfms _ _ _ d a b c .. => vUnit d ||| vUnit a ||| vUnit b ||| vUnit c
  | .vfnma _ _ _ d a b c .. => vUnit d ||| vUnit a ||| vUnit b ||| vUnit c
  | .vcmp _ _ _ _ a b .. => vUnit a ||| vUnit b
  | .vsel _ d a b .. => vUnit d ||| vUnit a ||| vUnit b
  | .vperm _ _ d a b .. => vUnit d ||| vUnit a ||| vUnit b
  | .vsplat _ _ d .. => vUnit d
  | .vext _ _ _ a .. => vUnit a
  | .vins _ _ d .. => vUnit d
  | .vcvt _ _ _ _ _ _ d a .. => vUnit d ||| vUnit a
  | .vld _ d .. => vUnit d
  | .vst _ b .. => vUnit b
  | .vlds _ _ d .. => vUnit d
  | .vsts _ _ b .. => vUnit b
  | .vgath _ _ _ d _ b .. => vUnit d ||| vUnit b
  | .vscat _ _ _ _ b c .. => vUnit b ||| vUnit c
  | .vhadd _ _ _ d a .. => vUnit d ||| vUnit a
  | .vxg _ d a .. => vUnit d ||| vUnit a
  | .vmov _ d a .. => vUnit d ||| vUnit a
  | .vmovg _ d .. => vUnit d
  | .tcfg _ d .. => tUnit d
  | .tld _ _ d .. => tUnit d
  | .tst _ _ b .. => tUnit b
  | .tzero _ d => tUnit d
  | .mma _ d a b => cUnit d ||| tUnit a ||| tUnit b
  | .czero _ d => cUnit d
  | .cld _ d .. => cUnit d
  | .cst _ b .. => cUnit b
  | .cdrainWAdd _ d .. => cUnit d
  | .cdrainWMov _ d .. => cUnit d
  | .cdrainTAdd _ d .. => cUnit d
  | .cdrainTMov _ d .. => cUnit d
  | .crecvW _ d .. => cUnit d
  | .crecvT _ d .. => cUnit d
  | .ccvt _ _ _ _ _ d a .. => tUnit d ||| cUnit a
  | .ttr _ d a => tUnit d ||| tUnit a
  | .skqadd _ b .. => vUnit b
  | .skhadd _ b .. => vUnit b
  | .skdadd _ b .. => vUnit b
  | .skmadd _ b .. => vUnit b
  | .add .. | .sub .. | .and .. | .or .. | .xor .. | .andn .. | .shl .. | .shr .. | .sar .. | .ror .. | .min ..
  | .max .. | .minu .. | .maxu .. | .mul .. | .mulh .. | .mulhu .. | .div .. | .divu .. | .rem .. | .remu ..
  | .addw .. | .subw .. | .mulw .. | .clz .. | .ctz .. | .popc .. | .bswap .. | .sext .. | .zext .. | .bfx ..
  | .bfi .. | .addi .. | .andi .. | .ori .. | .xori .. | .shli .. | .shri .. | .sari .. | .rori .. | .mini ..
  | .maxi .. | .addwi .. | .movl .. | .pcrel .. | .cmp .. | .cmpi .. | .pand .. | .por .. | .pxor .. | .pandn ..
  | .pnot .. | .pmov .. | .pset .. | .sel .. | .csrr .. | .csrw .. | .csrs .. | .csrc .. | .b .. | .bp .. | .jmp ..
  | .jal .. | .jalr .. | .loop .. | .gset .. | .gkill .. | .qput .. | .qget .. | .ld .. | .ldAq .. | .st .. | .stRl ..
  | .lds .. | .sts .. | .ldx .. | .stx .. | .stxT .. | .amoAdd .. | .amoAnd .. | .amoOr .. | .amoXor .. | .amoMin ..
  | .amoMax .. | .amoMinu .. | .amoMaxu .. | .amoSwap .. | .cas .. | .amoxAdd .. | .amoxAnd .. | .amoxOr ..
  | .amoxXor .. | .amoxMin .. | .amoxMax .. | .amoxMinu .. | .amoxMaxu .. | .amoxSwap .. | .fence .. | .pref ..
  | .prefSt .. | .mcst .. | .winset .. | .winclr .. | .evw .. | .evt .. | .chooseW .. | .chooseT .. | .signal ..
  | .armReg .. | .armImm .. | .spawn .. | .endTask .. | .yield .. | .bind .. | .unbind .. | .evseq .. | .mand ..
  | .mor .. | .mxor .. | .mnot .. | .mset .. | .gangOn .. | .gangOff .. | .mxr .. | .mxclr .. | .skinit ..
  | .skmerge .. | .skquant .. | .sktopk .. | .skcard .. | .skmom .. | .cpy .. | .cpyT .. | .cpysk .. | .coll ..
  | .txe .. | .txd .. | .vocab .. | .trap .. | .brk .. | .eret .. | .xlinv .. | .xlinvCtx .. | .xlinvVa ..
  | .ctxsave .. | .ctxload .. | .knotopRd .. | .knotopWr .. | .knotopPurge .. | .knotopCancel .. | .idle .. | .nop
  | .nopX | .nopL | .remoteRequest | .remoteReply | .offer | .claim | .grant | .revoke | .released | .release
  | .refuse | .commit | .withdraw | .tilePayload | .deadline | .agedSweep | .fullBackoff | .budgetExpiry
  | .combiningLineTimeout | .taskDispatch | .steal | .handlerActivation | .copyJob | .jobTranslationResume
  | .collective | .abortColl | .collectiveDeadline | .userRoutine | .userRoutineOverrun | .txeJob | .txdJob
  | .vocabJob | .pageWalk | .textFrame | .tokenChunk | .missingFrameTimeout | .openNotice | .endNotice | .dropNotice
  | .detokeniseChunk | .kick | .launchAccept | .launchStart | .launchComplete | .reset | .ctxCreate | .ctxDestroy
  | .queueCfg | .launchEnd | .textAttach | .vocabLoad | .trackStart | .harvest | .quiesce | .save | .load | .resume
  | .ckpt | .ckptLoad | .recover | .trapnext | .retry | .kill | .host | .preempt | .preemptResume | .hclrEcc
  | .hclrPoison | .registerWrite | .interrupt | .stageEvaluation | .graft | .placementGeneration | .packetResend
  | .agePromotion | .cxlMemWrite | .cxlMemRead | .heartwoodBoot | .getReport | .setTenantKey | .getIdentity
  | .laneMarginFail | .linkTimeout | .linkRetrain | .flitReplay | .monitorSample | .patrolScrub | .powerCapWindow
  | .thermalThrottle | .thermalTrip | .healthWindowUpdate | .unassignedOpcode | .globalAccessPerformed
  | .globalAccessReply | .ultraEthernetMessage | .coreFailure | .hostLinkDown | .linkStepDone => 0
/-- The G register that an instruction writes only when it issues: the job number of CPY.T (R213). -/
def gIfIssued (i : Instr) : List GReg :=
  match i with
  | .cpyT _ d .. => [d]
  | _ => []
/-- The fetch units whose registers an instruction uses (R229). -/
def unitsOf (i : Instr) : BitVec 28 := (gReads i ++ gWrites i ++ gIfIssued i).foldl (fun u r => u ||| gUnit r) (fileUnits i)
/-- The instructions that R124 bars from the end of an active loop. -/
def barredAtEnd (i : Instr) : Bool :=
  match i with
  | .evw .. | .chooseW .. | .cdrainWAdd .. | .cdrainWMov .. | .crecvW .. | .yield .. | .endTask .. | .loop .. => true
  | _ => false
/-- Whether a crown core runs an instruction (R303): scalar, predicate and control instructions, LD, LDS, STS, the vector
instructions other than VGATH, VSCAT and VST, and END. -/
def crownRuns (i : Instr) : Bool :=
  match i with
  | .add .. => true
  | .sub .. => true
  | .and .. => true
  | .or .. => true
  | .xor .. => true
  | .andn .. => true
  | .shl .. => true
  | .shr .. => true
  | .sar .. => true
  | .ror .. => true
  | .min .. => true
  | .max .. => true
  | .minu .. => true
  | .maxu .. => true
  | .mul .. => true
  | .mulh .. => true
  | .mulhu .. => true
  | .div .. => true
  | .divu .. => true
  | .rem .. => true
  | .remu .. => true
  | .addw .. => true
  | .subw .. => true
  | .mulw .. => true
  | .clz .. => true
  | .ctz .. => true
  | .popc .. => true
  | .bswap .. => true
  | .sext .. => true
  | .zext .. => true
  | .bfx .. => true
  | .bfi .. => true
  | .addi .. => true
  | .andi .. => true
  | .ori .. => true
  | .xori .. => true
  | .shli .. => true
  | .shri .. => true
  | .sari .. => true
  | .rori .. => true
  | .mini .. => true
  | .maxi .. => true
  | .addwi .. => true
  | .movl .. => true
  | .pcrel .. => true
  | .cmp .. => true
  | .cmpi .. => true
  | .pand .. => true
  | .por .. => true
  | .pxor .. => true
  | .pandn .. => true
  | .pnot .. => true
  | .pmov .. => true
  | .pset .. => true
  | .sel .. => true
  | .csrr .. => true
  | .csrw .. => true
  | .csrs .. => true
  | .csrc .. => true
  | .b .. => true
  | .bp .. => true
  | .jmp .. => true
  | .jal .. => true
  | .jalr .. => true
  | .loop .. => true
  | .gset .. => true
  | .gkill .. => true
  | .qput .. => true
  | .qget .. => true
  | .ld .. => true
  | .ldAq .. => true
  | .st .. => false
  | .stRl .. => false
  | .lds .. => true
  | .sts .. => true
  | .ldx .. => false
  | .stx .. => false
  | .stxT .. => false
  | .amoAdd .. => false
  | .amoAnd .. => false
  | .amoOr .. => false
  | .amoXor .. => false
  | .amoMin .. => false
  | .amoMax .. => false
  | .amoMinu .. => false
  | .amoMaxu .. => false
  | .amoSwap .. => false
  | .cas .. => false
  | .amoxAdd .. => false
  | .amoxAnd .. => false
  | .amoxOr .. => false
  | .amoxXor .. => false
  | .amoxMin .. => false
  | .amoxMax .. => false
  | .amoxMinu .. => false
  | .amoxMaxu .. => false
  | .amoxSwap .. => false
  | .fence .. => false
  | .pref .. => false
  | .prefSt .. => false
  | .mcst .. => false
  | .winset .. => false
  | .winclr .. => false
  | .evw .. => false
  | .evt .. => false
  | .chooseW .. => false
  | .chooseT .. => false
  | .signal .. => false
  | .armReg .. => false
  | .armImm .. => false
  | .spawn .. => false
  | .endTask .. => true
  | .yield .. => false
  | .bind .. => false
  | .unbind .. => false
  | .evseq .. => false
  | .vadd .. => true
  | .vsub .. => true
  | .vmul .. => true
  | .vmulh .. => true
  | .vmin .. => true
  | .vmax .. => true
  | .vminu .. => true
  | .vmaxu .. => true
  | .vand .. => true
  | .vor .. => true
  | .vxor .. => true
  | .vandn .. => true
  | .vshl .. => true
  | .vshr .. => true
  | .vsar .. => true
  | .vabs .. => true
  | .vneg .. => true
  | .vaddi .. => true
  | .vsubi .. => true
  | .vmini .. => true
  | .vmaxi .. => true
  | .vminui .. => true
  | .vmaxui .. => true
  | .vandi .. => true
  | .vori .. => true
  | .vxori .. => true
  | .vandni .. => true
  | .vshli .. => true
  | .vshri .. => true
  | .vsari .. => true
  | .vfadd .. => true
  | .vfsub .. => true
  | .vfmul .. => true
  | .vfdiv .. => true
  | .vfmin .. => true
  | .vfmax .. => true
  | .vfsqrt .. => true
  | .vfabs .. => true
  | .vfneg .. => true
  | .vfex2 .. => true
  | .vflg2 .. => true
  | .vfma .. => true
  | .vfms .. => true
  | .vfnma .. => true
  | .vcmp .. => true
  | .vsel .. => true
  | .vperm .. => true
  | .vsplat .. => true
  | .vext .. => true
  | .vins .. => true
  | .vcvt .. => true
  | .vld .. => true
  | .vst .. => false
  | .vlds .. => true
  | .vsts .. => true
  | .vgath .. => false
  | .vscat .. => false
  | .vhadd .. => true
  | .mand .. => true
  | .mor .. => true
  | .mxor .. => true
  | .mnot .. => true
  | .mset .. => true
  | .vxg .. => true
  | .gangOn .. => false
  | .gangOff .. => false
  | .vmov .. => true
  | .vmovg .. => true
  | .tcfg .. => false
  | .tld .. => false
  | .tst .. => false
  | .tzero .. => false
  | .mma .. => false
  | .czero .. => false
  | .cld .. => false
  | .cst .. => false
  | .cdrainWAdd .. => false
  | .cdrainWMov .. => false
  | .cdrainTAdd .. => false
  | .cdrainTMov .. => false
  | .crecvW .. => false
  | .crecvT .. => false
  | .ccvt .. => false
  | .ttr .. => false
  | .mxr .. => false
  | .mxclr .. => false
  | .skinit .. => false
  | .skqadd .. => false
  | .skhadd .. => false
  | .skdadd .. => false
  | .skmadd .. => false
  | .skmerge .. => false
  | .skquant .. => false
  | .sktopk .. => false
  | .skcard .. => false
  | .skmom .. => false
  | .cpy .. => false
  | .cpyT .. => false
  | .cpysk .. => false
  | .coll .. => false
  | .txe .. => false
  | .txd .. => false
  | .vocab .. => false
  | .trap .. => false
  | .brk .. => false
  | .eret .. => false
  | .xlinv .. => false
  | .xlinvCtx .. => false
  | .xlinvVa .. => false
  | .ctxsave .. => false
  | .ctxload .. => false
  | .knotopRd .. => false
  | .knotopWr .. => false
  | .knotopPurge .. => false
  | .knotopCancel .. => false
  | .idle .. => false
  | .nop => true
  | .nopX => true
  | .nopL => true
  | .remoteRequest => false
  | .remoteReply => false
  | .offer => false
  | .claim => false
  | .grant => false
  | .revoke => false
  | .released => false
  | .release => false
  | .refuse => false
  | .commit => false
  | .withdraw => false
  | .tilePayload => false
  | .deadline => false
  | .agedSweep => false
  | .fullBackoff => false
  | .budgetExpiry => false
  | .combiningLineTimeout => false
  | .taskDispatch => false
  | .steal => false
  | .handlerActivation => false
  | .copyJob => false
  | .jobTranslationResume => false
  | .collective => false
  | .abortColl => false
  | .collectiveDeadline => false
  | .userRoutine => false
  | .userRoutineOverrun => false
  | .txeJob => false
  | .txdJob => false
  | .vocabJob => false
  | .pageWalk => false
  | .textFrame => false
  | .tokenChunk => false
  | .missingFrameTimeout => false
  | .openNotice => false
  | .endNotice => false
  | .dropNotice => false
  | .detokeniseChunk => false
  | .kick => false
  | .launchAccept => false
  | .launchStart => false
  | .launchComplete => false
  | .reset => false
  | .ctxCreate => false
  | .ctxDestroy => false
  | .queueCfg => false
  | .launchEnd => false
  | .textAttach => false
  | .vocabLoad => false
  | .trackStart => false
  | .harvest => false
  | .quiesce => false
  | .save => false
  | .load => false
  | .resume => false
  | .ckpt => false
  | .ckptLoad => false
  | .recover => false
  | .trapnext => false
  | .retry => false
  | .kill => false
  | .host => false
  | .preempt => false
  | .preemptResume => false
  | .hclrEcc => false
  | .hclrPoison => false
  | .registerWrite => false
  | .interrupt => false
  | .stageEvaluation => false
  | .graft => false
  | .placementGeneration => false
  | .packetResend => false
  | .agePromotion => false
  | .cxlMemWrite => false
  | .cxlMemRead => false
  | .heartwoodBoot => false
  | .getReport => false
  | .setTenantKey => false
  | .getIdentity => false
  | .laneMarginFail => false
  | .linkTimeout => false
  | .linkRetrain => false
  | .flitReplay => false
  | .monitorSample => false
  | .patrolScrub => false
  | .powerCapWindow => false
  | .thermalThrottle => false
  | .thermalTrip => false
  | .healthWindowUpdate => false
  | .unassignedOpcode => false
  | .globalAccessPerformed => false
  | .globalAccessReply => false
  | .ultraEthernetMessage => false
  | .coreFailure => false
  | .hostLinkDown => false
  | .linkStepDone => false
/-- The supervisor instructions (R98). -/
def supervisorOnly (i : Instr) : Bool :=
  match i with
  | .add .. => false
  | .sub .. => false
  | .and .. => false
  | .or .. => false
  | .xor .. => false
  | .andn .. => false
  | .shl .. => false
  | .shr .. => false
  | .sar .. => false
  | .ror .. => false
  | .min .. => false
  | .max .. => false
  | .minu .. => false
  | .maxu .. => false
  | .mul .. => false
  | .mulh .. => false
  | .mulhu .. => false
  | .div .. => false
  | .divu .. => false
  | .rem .. => false
  | .remu .. => false
  | .addw .. => false
  | .subw .. => false
  | .mulw .. => false
  | .clz .. => false
  | .ctz .. => false
  | .popc .. => false
  | .bswap .. => false
  | .sext .. => false
  | .zext .. => false
  | .bfx .. => false
  | .bfi .. => false
  | .addi .. => false
  | .andi .. => false
  | .ori .. => false
  | .xori .. => false
  | .shli .. => false
  | .shri .. => false
  | .sari .. => false
  | .rori .. => false
  | .mini .. => false
  | .maxi .. => false
  | .addwi .. => false
  | .movl .. => false
  | .pcrel .. => false
  | .cmp .. => false
  | .cmpi .. => false
  | .pand .. => false
  | .por .. => false
  | .pxor .. => false
  | .pandn .. => false
  | .pnot .. => false
  | .pmov .. => false
  | .pset .. => false
  | .sel .. => false
  | .csrr .. => false
  | .csrw .. => false
  | .csrs .. => false
  | .csrc .. => false
  | .b .. => false
  | .bp .. => false
  | .jmp .. => false
  | .jal .. => false
  | .jalr .. => false
  | .loop .. => false
  | .gset .. => false
  | .gkill .. => false
  | .qput .. => false
  | .qget .. => false
  | .ld .. => false
  | .ldAq .. => false
  | .st .. => false
  | .stRl .. => false
  | .lds .. => false
  | .sts .. => false
  | .ldx .. => false
  | .stx .. => false
  | .stxT .. => false
  | .amoAdd .. => false
  | .amoAnd .. => false
  | .amoOr .. => false
  | .amoXor .. => false
  | .amoMin .. => false
  | .amoMax .. => false
  | .amoMinu .. => false
  | .amoMaxu .. => false
  | .amoSwap .. => false
  | .cas .. => false
  | .amoxAdd .. => false
  | .amoxAnd .. => false
  | .amoxOr .. => false
  | .amoxXor .. => false
  | .amoxMin .. => false
  | .amoxMax .. => false
  | .amoxMinu .. => false
  | .amoxMaxu .. => false
  | .amoxSwap .. => false
  | .fence .. => false
  | .pref .. => false
  | .prefSt .. => false
  | .mcst .. => false
  | .winset .. => false
  | .winclr .. => false
  | .evw .. => false
  | .evt .. => false
  | .chooseW .. => false
  | .chooseT .. => false
  | .signal .. => false
  | .armReg .. => false
  | .armImm .. => false
  | .spawn .. => false
  | .endTask .. => false
  | .yield .. => false
  | .bind .. => false
  | .unbind .. => false
  | .evseq .. => false
  | .vadd .. => false
  | .vsub .. => false
  | .vmul .. => false
  | .vmulh .. => false
  | .vmin .. => false
  | .vmax .. => false
  | .vminu .. => false
  | .vmaxu .. => false
  | .vand .. => false
  | .vor .. => false
  | .vxor .. => false
  | .vandn .. => false
  | .vshl .. => false
  | .vshr .. => false
  | .vsar .. => false
  | .vabs .. => false
  | .vneg .. => false
  | .vaddi .. => false
  | .vsubi .. => false
  | .vmini .. => false
  | .vmaxi .. => false
  | .vminui .. => false
  | .vmaxui .. => false
  | .vandi .. => false
  | .vori .. => false
  | .vxori .. => false
  | .vandni .. => false
  | .vshli .. => false
  | .vshri .. => false
  | .vsari .. => false
  | .vfadd .. => false
  | .vfsub .. => false
  | .vfmul .. => false
  | .vfdiv .. => false
  | .vfmin .. => false
  | .vfmax .. => false
  | .vfsqrt .. => false
  | .vfabs .. => false
  | .vfneg .. => false
  | .vfex2 .. => false
  | .vflg2 .. => false
  | .vfma .. => false
  | .vfms .. => false
  | .vfnma .. => false
  | .vcmp .. => false
  | .vsel .. => false
  | .vperm .. => false
  | .vsplat .. => false
  | .vext .. => false
  | .vins .. => false
  | .vcvt .. => false
  | .vld .. => false
  | .vst .. => false
  | .vlds .. => false
  | .vsts .. => false
  | .vgath .. => false
  | .vscat .. => false
  | .vhadd .. => false
  | .mand .. => false
  | .mor .. => false
  | .mxor .. => false
  | .mnot .. => false
  | .mset .. => false
  | .vxg .. => false
  | .gangOn .. => false
  | .gangOff .. => false
  | .vmov .. => false
  | .vmovg .. => false
  | .tcfg .. => false
  | .tld .. => false
  | .tst .. => false
  | .tzero .. => false
  | .mma .. => false
  | .czero .. => false
  | .cld .. => false
  | .cst .. => false
  | .cdrainWAdd .. => false
  | .cdrainWMov .. => false
  | .cdrainTAdd .. => false
  | .cdrainTMov .. => false
  | .crecvW .. => false
  | .crecvT .. => false
  | .ccvt .. => false
  | .ttr .. => false
  | .mxr .. => false
  | .mxclr .. => false
  | .skinit .. => false
  | .skqadd .. => false
  | .skhadd .. => false
  | .skdadd .. => false
  | .skmadd .. => false
  | .skmerge .. => false
  | .skquant .. => false
  | .sktopk .. => false
  | .skcard .. => false
  | .skmom .. => false
  | .cpy .. => false
  | .cpyT .. => false
  | .cpysk .. => false
  | .coll .. => false
  | .txe .. => false
  | .txd .. => false
  | .vocab .. => false
  | .trap .. => false
  | .brk .. => false
  | .eret .. => true
  | .xlinv .. => true
  | .xlinvCtx .. => true
  | .xlinvVa .. => true
  | .ctxsave .. => true
  | .ctxload .. => true
  | .knotopRd .. => true
  | .knotopWr .. => true
  | .knotopPurge .. => true
  | .knotopCancel .. => true
  | .idle .. => true
  | .nop => false
  | .nopX => false
  | .nopL => false
  | .remoteRequest => false
  | .remoteReply => false
  | .offer => false
  | .claim => false
  | .grant => false
  | .revoke => false
  | .released => false
  | .release => false
  | .refuse => false
  | .commit => false
  | .withdraw => false
  | .tilePayload => false
  | .deadline => false
  | .agedSweep => false
  | .fullBackoff => false
  | .budgetExpiry => false
  | .combiningLineTimeout => false
  | .taskDispatch => false
  | .steal => false
  | .handlerActivation => false
  | .copyJob => false
  | .jobTranslationResume => false
  | .collective => false
  | .abortColl => false
  | .collectiveDeadline => false
  | .userRoutine => false
  | .userRoutineOverrun => false
  | .txeJob => false
  | .txdJob => false
  | .vocabJob => false
  | .pageWalk => false
  | .textFrame => false
  | .tokenChunk => false
  | .missingFrameTimeout => false
  | .openNotice => false
  | .endNotice => false
  | .dropNotice => false
  | .detokeniseChunk => false
  | .kick => false
  | .launchAccept => false
  | .launchStart => false
  | .launchComplete => false
  | .reset => false
  | .ctxCreate => false
  | .ctxDestroy => false
  | .queueCfg => false
  | .launchEnd => false
  | .textAttach => false
  | .vocabLoad => false
  | .trackStart => false
  | .harvest => false
  | .quiesce => false
  | .save => false
  | .load => false
  | .resume => false
  | .ckpt => false
  | .ckptLoad => false
  | .recover => false
  | .trapnext => false
  | .retry => false
  | .kill => false
  | .host => false
  | .preempt => false
  | .preemptResume => false
  | .hclrEcc => false
  | .hclrPoison => false
  | .registerWrite => false
  | .interrupt => false
  | .stageEvaluation => false
  | .graft => false
  | .placementGeneration => false
  | .packetResend => false
  | .agePromotion => false
  | .cxlMemWrite => false
  | .cxlMemRead => false
  | .heartwoodBoot => false
  | .getReport => false
  | .setTenantKey => false
  | .getIdentity => false
  | .laneMarginFail => false
  | .linkTimeout => false
  | .linkRetrain => false
  | .flitReplay => false
  | .monitorSample => false
  | .patrolScrub => false
  | .powerCapWindow => false
  | .thermalThrottle => false
  | .thermalTrip => false
  | .healthWindowUpdate => false
  | .unassignedOpcode => false
  | .globalAccessPerformed => false
  | .globalAccessReply => false
  | .ultraEthernetMessage => false
  | .coreFailure => false
  | .hostLinkDown => false
  | .linkStepDone => false

end Sys2Proof.Machine
end

