-- ==== Sys2Proof/Machine/Cycle.lean ====
section
/-! DEFINITION. What may happen next, which of it does, and how a core runs the instruction at its PC: the helpers of
Machine/Step.lean (DESIGN CHOICE, log 4, DESIGN CHOICE, log 5). -/

namespace Sys2Proof.Machine

/-! ## Time (DESIGN CHOICE, log 4) -/

/-- Time passes: the time base, the focused core's cycle counter, and the model's own count of steps. -/
def State.advance (s : State) : State :=
  { s with time := s.time + Config.elapse s.tick, cycle := s.cycle + Config.cycles s.tick, tick := s.tick + 1 }

/-! ## Running an instruction -/

/-- What stands against executing an instruction now. -/
inductive Hazard where
  /-- Nothing. -/
  | clear
  /-- It reads a register whose value is on its way, or follows an LD.AQ: the scalar stream stalls (R129, R134, R140). -/
  | stall
  /-- It reads a register that a held command will write, or one whose value waits in SO order behind a held command:
  nothing can release that command (R126, R265). -/
  | blocked
  deriving DecidableEq, Repr
/-- An instruction whose qualifier is true, or that has none (R91). -/
def State.executes (s : State) (i : Instr) : Bool := (i.hdr?.map s.qual).getD true
/-- The hazard of an instruction. One that does not execute has none: its qualifier is false (R91), it is a supervisor
instruction at task level (R98), or it traps where it stands, at the end of an active loop (R39, R124).
(DEDUCED, log 15). -/
def State.hazard (s : State) (i : Instr) : Hazard :=
  if !s.executes i || (supervisorOnly i && !s.supervisor) || (barredAtEnd i && s.atLoopEnd) then .clear
  else
  let uses := if s.run.kind == .root then gReads i ++ gWrites i else gReads i
  if s.run.flight.any (fun f => s.run.stuck f && (f.acq || uses.contains f.dest) && f.dest != 0) then .blocked
  else if s.acquiring || uses.any (fun r => s.awaited.contains r) then .stall
  else if (gReads i).any (fun r => r != 0 && s.run.held.any (fun e => e.gDest == r)) then .blocked
  else .clear
/-- The loop-back by which an instruction has gone to a start address with bits 1:0 nonzero, if it has; such a start comes
from a task record alone (R88, R122, R333). -/
def State.strayLoop (s t : State) : Option Word :=
  (s.r.lc.toList.find? (fun l => l.endsAt s.r.pc && l.s.toNat % 4 != 0 && t.r.pc == l.s)).map (fun l => l.s)
/-- What executing an instruction at the PC comes to: a loop-back to a misaligned start traps ALIGN at the instruction, in
place of its effect (R88). -/
def State.looped (s : State) (o : Host.Outcome State Fault Refusal) : Host.Outcome State Fault Refusal :=
  match o with
  | .next t => match s.strayLoop t with
    | some a => .next (s.trap .align a)
    | none => .next t
  | o => o
/-- An instruction at the PC of the focused core: a crown core traps ILLEGAL at one that R303 does not give it and that
executes (R91). -/
def State.runInstr (s : State) (i : Instr) : Host.Outcome State Fault Refusal :=
  if s.run.kind == .crown && !crownRuns i && s.executes i then .next (s.trap .illegal)
  else
    match s.hazard i with
    | .stall => .next s
    | .blocked => .next s.deadlock
    | .clear => s.looped (exec i (if s.executes i then (s.fetchUnits (unitsOf i)).overwriteAll (gWrites i) else s))
/-- Bytes of the longest instruction (R88). -/
def maxLen : Nat := 16
/-- A trap at a fetch; a poisoned byte is consumed by it (R361). -/
def State.fetchFault (s : State) (t : TrapAt) : State :=
  if t.trap = .poison then
    let ls := s.locs s.r.pc.toNat maxLen
    (((s.firstPoison ls).bind (fun i => ls[i]?)).elim s s.consumed).trapAt t s.r.pc
  else s.accessTrap t s.r.pc
/-- The instruction cycle of the focused core: a pending interrupt first (R340; an IDLE core goes on at IDLE's successor
before it, R225), then held commands that may run now, then the end of a segment that goes on (R23), else the fetch, the
decoder and the instruction (R87, R100). The page of the instruction is touched (R337). -/
def State.runCore (s : State) : Host.Outcome State Fault Refusal :=
  if s.interrupted && !s.run.idle then exec .interrupt { s with doing := some (.interrupt s.core) }
  else
    match State.pump s.run.held.length { s with doing := none } with
    | .stop s t pc => .next (s.trapAt t pc)
    | .ok s =>
      match s.run.ending with
      | some k => .next (s.endStep k)
      | none =>
        match s.fetch with
        | .trap t => .next (s.fetchFault t)
        | .got (.illegal _) => .next (s.trap .illegal)
        | .got (.instr i) => (s.touchAll s.r.pc.toNat 4 false).runInstr i

/-! ## What may happen -/

/-- One thing that may happen next: a step owed by a unit or delivered from outside, or an instruction of a core. -/
inductive Choice where
  | owed (o : Owed)
  | core (n : Nat)
  deriving DecidableEq, Repr
/-- Whose offers reach an event in the order in which they were made: a sender's on a binding event, and those of a launch
on a link that it arms and waits for (R167, R308, R323). -/
def State.sequence (s : State) (ro alt : Nat) : Option (Sum RankKey Nat × EvKey) :=
  match s.recOf ro with
  | none => none
  | some r =>
    match r.alts[alt]? with
    | none => none
    | some a =>
      match r.owner, r.rank with
      | .armev l _, _ => some (.inr l, a.e)
      | .waitev l _, _ => some (.inr l, a.e)
      | _, some k => if ((s.ev a.e).map (fun x => x.desc.kind == .binding)).getD false then some (.inl k, a.e) else none
      | _, none => none
/-- The offer that a step makes, for the first time or again. -/
def offerOf : Owed → Option (Nat × Nat)
  | .offer ro alt => some (ro, alt)
  | .fullBackoff ro alt => some (ro, alt)
  | _ => none
/-- Whether two requests may reach one rank: an MCST reaches the ranks of its clusters that it has not reached (R140,
R143). -/
def State.sameTarget (s : State) (p q : RemoteReq) : Bool :=
  match p.cast, q.cast with
  | none, none => p.tgt == q.tgt
  | some c, none => (s.castLeft p c).contains q.tgt
  | none, some c => (s.castLeft q c).contains p.tgt
  | some c, some d => c.clusters.any (fun x => d.clusters.contains x)
/-- A step stands before another by its number, wherever both are listed: the requests of one task to one rank, and the
offers of one sequence (R140, R167, R323). Accesses to SO pages have their own order (R265). -/
def State.precedes (s : State) (x y : Owed) : Bool :=
  match x, y with
  | .remoteRequest p, .remoteRequest q => p.src.task == q.src.task && p.id < q.id && s.sameTarget p q
  | _, _ =>
    match offerOf x, offerOf y with
    | some a, some b => a.1 < b.1 && (s.sequence a.1 a.2).isSome && s.sequence a.1 a.2 == s.sequence b.1 b.2
    | _, _ => false
/-- What a knot sends to a record. -/
def fromKnot : Owed → Option (EvKey × Nat)
  | .claim ro e _ => some (e, ro)
  | .release ro e => some (e, ro)
  | .released ro e => some (e, ro)
  | .commit c => some (c.e, c.ro)
  | _ => none
/-- What a record sends to a knot. -/
def State.toKnot (s : State) : Owed → Option (EvKey × Nat)
  | .grant e ro => some (e, ro)
  | .refuse e ro => some (e, ro)
  | .revoke e ro => some (e, ro)
  | .withdraw e ro => some (e, ro)
  | .offer ro alt => ((s.recOf ro).bind (fun r => r.alts[alt]?)).map (fun a => (a.e, ro))
  | _ => none
/-- A text request by its number: one that its open notice has not reached is known by that notice. -/
def State.requestOf (s : State) (id : Nat) : Option (Nat × Nat) :=
  match s.replyAt id with
  | some r => some (r.ctx, r.req)
  | none => s.pending.findSome? (fun o => match o with
    | .openNotice n => if n.id = id then some (n.ctx, n.req) else none
    | _ => none)
/-- The request that a notice is about. -/
def State.noticeOf (s : State) : Owed → Option (Nat × Nat)
  | .openNotice n => some (n.ctx, n.req)
  | .endNotice id => s.requestOf id
  | .dropNotice id => s.requestOf id
  | _ => none
/-- Steps taken in the order in which they were sent: those between one knot and one record, each way, and the notices of
one text request (R244, R293).
(DEDUCED, log 20). -/
def State.sameChannel (s : State) (x y : Owed) : Bool :=
  ((fromKnot x).isSome && fromKnot x == fromKnot y) || ((s.toKnot x).isSome && s.toKnot x == s.toKnot y) ||
    ((s.noticeOf x).isSome && s.noticeOf x == s.noticeOf y)
/-- A detokeniser takes no chunk before the open notice of its request, when that is on its way (R293, R296). -/
def State.waitsNotice (s : State) (y : Owed) : Bool :=
  match y with
  | .detokeniseChunk e =>
    match ((s.ev e).bind (fun x => x.binding)).bind (fun b => b.queue.head?) with
    | some a => s.pending.any (fun o => match o with
      | .openNotice n => n.ctx == e.ctx && n.req == a.req
      | _ => false)
    | none => false
  | _ => false
/-- The steps owed that nothing owed before them holds back. -/
def State.firstOwed (s : State) (seen : List Owed) : List Owed → List Owed
  | [] => []
  | x :: xs =>
    if seen.any (fun y => s.sameChannel y x) || s.pending.any (fun y => s.precedes y x) || s.waitsNotice x then
      State.firstOwed s (x :: seen) xs
    else x :: State.firstOwed s (x :: seen) xs
/-- The cores that hold something: the focused one and the others. -/
def State.execs (s : State) : List Exec :=
  { core := s.core, r := s.r, run := s.run, rank := s.rank, cycle := s.cycle } :: s.mod.others
/-- Posted accesses of a core, or their parts, that may be performed, and accesses that may be answered (R129, R261). -/
def State.flights (s : State) (e : Exec) : List Owed :=
  (e.run.flight.zipIdx).filterMap (fun x =>
    if x.1.performed then
      if x.1.grp = x.1.id ∧ (e.run.parts x.1).all (fun g => g.performed) then some (.globalAccessReply e.core x.2) else none
    else if s.flightReady e.run x.1 then some (.globalAccessPerformed e.core x.2)
    else none)
/-- Longest time that a line stays in a combining buffer, in nanoseconds (R268). -/
def combLimit : Nat := 4000
/-- Lines of a core's combining buffer; a line may leave at any time. -/
def Exec.lines (e : Exec) : List Owed := e.run.comb.map (fun l => .combiningLineTimeout e.core l.line)
/-- Lines whose time is over. -/
def Exec.oldLines (e : Exec) (now : Nat) : List Owed :=
  (e.run.comb.filter (fun l => decide (l.t0 + combLimit ≤ now))).map (fun l => .combiningLineTimeout e.core l.line)
/-- A segment whose budget is over (R11). -/
def Exec.expired (e : Exec) (now : Nat) : Bool :=
  e.run.kind == .compute && e.run.on && !e.run.committing && decide (e.run.start + e.run.budget ≤ now)
/-- Whether the instruction at which a core stands traps now: its run reports a trap of its task (R39). -/
def State.trapsNow (s : State) (e : Exec) : Bool :=
  match (s.focus e.core).runCore with
  | .next t =>
    let n (x : State) : Nat := x.mod.reports.length + x.mod.waiting.length
    decide (n s < n t) && (t.mod.reports ++ t.mod.waiting).getLast?.any (fun r => r.kind == 0 && r.task == some e.run.task)
  | _ => false
/-- The end of an expired segment (R11), and of a USER routine past its time (R249). An instruction that would trap at
that moment traps instead (R39).
(DESIGN CHOICE, log 4). -/
def State.expiry (s : State) (e : Exec) : List Choice :=
  if e.expired s.time then
    [if s.trapsNow e then .core e.core else .owed (.budgetExpiry e.core)]
  else if e.run.kind == .crown && e.run.on && decide (e.run.start + e.run.budget ≤ s.time) then
    match (s.task e.run.task).bind (fun t => t.act) with
    | some a => [.owed (.userRoutineOverrun a.e)]
    | none => []
  else []
/-- Deadlines of events and collectives that have passed (R248, R257). -/
def State.lateEvents (s : State) : List Owed :=
  s.mod.events.flatMap (fun x =>
    (match x.clock with
     | some t => if x.ending.isNone ∧ x.desc.deadline ≠ 0 ∧ t + 1000 * x.desc.deadline ≤ s.time then [.deadline x.key] else []
     | none => []) ++
    (match x.coll with
     | some c => if !c.aborting ∧ c.start + collLimit x.desc ≤ s.time then [.collectiveDeadline x.key] else []
     | none => []))
/-- Records that have come of age at a knot that has not marked them (R241). -/
def State.lateAges (s : State) : List Owed :=
  s.mod.recs.flatMap (fun r => if !r.aged && (agedAge : Int) ≤ s.age r.stamp then
    (r.alts.take 1).map (fun a => .agedSweep (s.knotOf a.e)) else [])
/-- Time that a link's step has, in nanoseconds (R351). -/
def stepLimit : Nat := 30000
/-- A party past the link timeout that is not declared failed. -/
def State.latePeer (s : State) (p : Nat) : List Owed :=
  match s.partyDown p with
  | some t => if !s.mod.failed.contains p ∧ t + linkLimit ≤ s.time then [.linkTimeout p] else []
  | none => []
/-- Steps of links that are to be over, and parties that have been down for the link timeout (R271, R351). -/
def State.lateLinks (s : State) : List Owed :=
  (s.mod.links.toList.zipIdx).flatMap (fun l =>
    (match l.1.step with
     | some t => if t + stepLimit ≤ s.time then [.linkStepDone l.2] else []
     | none => []) ++
    (if l.1.downSince.isSome then s.latePeer l.1.peer.toNat else [])) ++
  (if s.mod.hostDown.isSome then s.latePeer hostParty else [])
/-- Text requests whose missing frame has not come in time (R293). -/
def State.lateFrames (s : State) : List Owed :=
  s.mod.texts.flatMap (fun x => if x.missing && x.arrived + frameLimit ≤ s.time then [.missingFrameTimeout x.id] else [])
/-- Dies whose stages are to be evaluated (R322). -/
def State.lateStages (s : State) : List Owed :=
  ((List.range 4).filter (fun d => !(s.stagesOn d).isEmpty && decide (s.nextEval d ≤ s.time))).map Owed.stageEvaluation
/-- What is due now, before anything else. -/
def State.due (s : State) : List Choice :=
  s.execs.flatMap (fun e => (e.oldLines s.time).map Choice.owed ++ s.expiry e) ++
    (s.lateEvents ++ s.lateAges ++ s.lateLinks ++ s.lateFrames ++ s.lateStages).map Choice.owed
/-- Whether a core runs an instruction when its turn comes: it has one, it works, and it does not wait for an interrupt
or for a knot's answer. After a trip no core runs, but for a commit that has begun (R316, R364). -/
def State.runnable (s : State) (e : Exec) : Bool :=
  e.run.on && !(s.mod.health.trip && !e.run.committing) && !(s.sched e.core).failed && !s.stalled e.core && !(e.run.idle && s.ipendOf e.run == 0) &&
    !(e.run.trying.isSome && e.run.answer.isNone) && !e.expired s.time
/-- Everything that may happen next (DESIGN CHOICE, log 5). -/
def State.choices (s : State) : List Choice :=
  match s.due with
  | [] =>
    (s.firstOwed [] s.pending).map Choice.owed ++
      s.execs.flatMap (fun e => (s.flights e ++ e.lines).map Choice.owed ++ if s.runnable e then [.core e.core] else [])
  | l => l
/-- Which of them happens: the only one, or the one that Config.pick names (DESIGN CHOICE, log 5). -/
def State.choose (s : State) : Option Choice :=
  match s.choices with
  | [] => none
  | [c] => some c
  | l => l[Config.pick s.tick % l.length]?

/-! ## Performing a step owed -/

/-- A step owed is taken off the list and performed. -/
def State.runOwed (s : State) (o : Owed) : Host.Outcome State Fault Refusal :=
  exec o.instr { s with pending := s.pending.erase o, doing := some o }
/-- What was chosen happens; when nothing can happen, time passes. -/
def State.act (s : State) (c : Option Choice) : Host.Outcome State Fault Refusal :=
  match c with
  | none => .next s
  | some (.owed o) => s.runOwed o
  | some (.core n) => (s.focus n).runCore

/-! ## Placing one instruction -/

/-- A root-controller core about to fetch, with nothing else in the part that could happen first. -/
def State.alone (s : State) : State :=
  { s with
    run := { Run.fresh .root with on := true, sup := { s.run.sup with ie := false } }
    core := rootCore
    pending := []
    doing := none
    mod := { s.mod with others := [], scheds := s.mod.scheds.filter (fun c => c.core ≠ rootCore)
                        boot := { s.mod.boot with state := 1 } } }

end Sys2Proof.Machine
end

