-- ==== Sys2Proof/Machine/Step.lean ====
section
/-! DEFINITION. One step of the part. -/

namespace Sys2Proof.Machine

/-- One step: time passes, and one of the things that may happen next happens (DESIGN CHOICE, log 4, DESIGN CHOICE, log 5). -/
def step (s : State) : Host.Outcome State Fault Refusal := s.advance.act s.advance.choose

/-- The state with one instruction placed in the private SRAM where root-controller core 0 fetches next, and nothing
else that could happen before it. This stands for the boot ROM, which loads a firmware image there and starts the core
(R343; DEDUCED, log 13). -/
def State.withFetchWord (s : State) (nbits w : Nat) : State :=
  let s := s.alone
  { s with r := { s.r with pc := 0 }, sram := s.sram.write 0 (natBytes 16 (w % 2 ^ nbits)) }

end Sys2Proof.Machine
end

