-- ==== Sys2Proof/Laws/Memory.lean ====
section
/-! SUPPORT. The laws of a memory: every operation keeps the canonical form, a read after a write gives the value
written, and a write leaves every other byte alone. Only the canonical form asks for a canonical memory. -/

namespace Sys2Proof.Machine

/-! ## The canonical form is kept -/

theorem Memory.wfFrom_mono {m : Memory} {lo lo' : Nat} (h : lo ≤ lo') (w : Memory.wfFrom lo' m = true) :
    Memory.wfFrom lo m = true := by
  cases m with
  | nil => rfl
  | cons c t =>
    simp only [Memory.wfFrom, Bool.and_eq_true, decide_eq_true_eq] at w ⊢
    exact ⟨⟨by omega, w.1.2⟩, w.2⟩
/-- A cell in front of a memory that starts above it. -/
theorem Memory.wfFrom_cons {m : Memory} {lo a : Nat} (v : Byte) (h : lo ≤ a) (w : Memory.wfFrom (a + 1) m = true) :
    Memory.wfFrom lo (Memory.cons a v m) = true := by
  unfold Memory.cons
  split
  · exact Memory.wfFrom_mono (by omega) w
  · simp only [Memory.wfFrom, Bool.and_eq_true, decide_eq_true_eq]
    exact ⟨⟨h, by assumption⟩, w⟩
theorem Memory.wfFrom_filter {m : Memory} {lo : Nat} (p : Host.Cell → Bool) (w : Memory.wfFrom lo m = true) :
    Memory.wfFrom lo (m.filter p) = true := by
  induction m generalizing lo with
  | nil => rfl
  | cons c t ih =>
    simp only [Memory.wfFrom, Bool.and_eq_true, decide_eq_true_eq] at w
    rw [List.filter_cons]
    split
    · simp only [Memory.wfFrom, Bool.and_eq_true, decide_eq_true_eq]
      exact ⟨w.1, ih w.2⟩
    · exact Memory.wfFrom_mono (by omega) (ih w.2)
theorem Memory.wfFrom_insert {m : Memory} {lo a : Nat} (v : Byte) (h : lo ≤ a) (n : ∀ c ∈ m, c.1 ≠ a)
    (w : Memory.wfFrom lo m = true) : Memory.wfFrom lo (Memory.insert m a v) = true := by
  induction m generalizing lo with
  | nil => exact Memory.wfFrom_cons v h rfl
  | cons c t ih =>
    obtain ⟨k, x⟩ := c
    have hk : k ≠ a := n (k, x) (List.mem_cons_self ..)
    simp only [Memory.wfFrom, Bool.and_eq_true, decide_eq_true_eq] at w
    unfold Memory.insert
    split
    · apply Memory.wfFrom_cons v h
      simp only [Memory.wfFrom, Bool.and_eq_true, decide_eq_true_eq]
      exact ⟨⟨by omega, w.1.2⟩, w.2⟩
    · simp only [Memory.wfFrom, Bool.and_eq_true, decide_eq_true_eq]
      exact ⟨w.1, ih (by omega) (fun c hc => n c (List.mem_cons_of_mem _ hc)) w.2⟩
/-- Writing a byte keeps the canonical form. -/
theorem Memory.wf_set {m : Memory} (a : Nat) (v : Byte) (w : m.wf = true) : (m.set a v).wf = true :=
  Memory.wfFrom_insert v (Nat.zero_le a) (fun c hc => by simpa using (List.mem_filter.mp hc).2) (Memory.wfFrom_filter _ w)
/-- Writing bytes keeps the canonical form. -/
theorem Memory.wf_write {m : Memory} (a : Nat) (bs : List Byte) (w : m.wf = true) : (m.write a bs).wf = true := by
  induction bs generalizing m a with
  | nil => exact w
  | cons b bs ih => exact ih (a + 1) (Memory.wf_set a b w)
/-- Writing bytes at addresses keeps the canonical form. -/
theorem Memory.wf_writeAt {m : Memory} (bs : List (Nat × Byte)) (w : m.wf = true) : (m.writeAt bs).wf = true := by
  induction bs generalizing m with
  | nil => exact w
  | cons b bs ih => exact ih (Memory.wf_set b.1 b.2 w)
/-- Clearing a range keeps the canonical form. -/
theorem Memory.wf_clear {m : Memory} (lo hi : Nat) (w : m.wf = true) : (m.clear lo hi).wf = true :=
  Memory.wfFrom_filter _ w
/-- Keeping a range alone keeps the canonical form. -/
theorem Memory.wf_slice {m : Memory} (lo hi : Nat) (w : m.wf = true) : (m.slice lo hi).wf = true :=
  Memory.wfFrom_filter _ w
/-- A canonical memory below an address, then one from that address on. -/
theorem Memory.wfFrom_append {m n : Memory} {lo mid : Nat} (h : lo ≤ mid) (b : ∀ c ∈ m, c.1 < mid)
    (w : Memory.wfFrom lo m = true) (v : Memory.wfFrom mid n = true) : Memory.wfFrom lo (m ++ n) = true := by
  induction m generalizing lo with
  | nil => exact Memory.wfFrom_mono h v
  | cons c t ih =>
    simp only [Memory.wfFrom, Bool.and_eq_true, decide_eq_true_eq, List.cons_append] at w ⊢
    exact ⟨w.1, ih (b c (List.mem_cons_self ..)) (fun d hd => b d (List.mem_cons_of_mem _ hd)) w.2⟩
/-- A canonical memory whose cells all lie from an address on is canonical from there. -/
theorem Memory.wfFrom_above {m : Memory} {lo hi : Nat} (b : ∀ c ∈ m, hi ≤ c.1) (w : Memory.wfFrom lo m = true) :
    Memory.wfFrom hi m = true := by
  cases m with
  | nil => rfl
  | cons c t =>
    simp only [Memory.wfFrom, Bool.and_eq_true, decide_eq_true_eq] at w ⊢
    exact ⟨⟨b c (List.mem_cons_self ..), w.1.2⟩, w.2⟩
/-- Replacing a range keeps the canonical form. -/
theorem Memory.wf_splice {m n : Memory} (lo hi : Nat) (w : m.wf = true) (v : n.wf = true) :
    (m.splice lo hi n).wf = true := by
  refine Memory.wfFrom_append (mid := max lo hi) (Nat.zero_le _) ?_ (Memory.wfFrom_append (mid := lo) (Nat.zero_le _) ?_
    (Memory.wfFrom_filter _ w) (Memory.wfFrom_above ?_ (Memory.wfFrom_filter _ v)))
    (Memory.wfFrom_above ?_ (Memory.wfFrom_filter _ w))
  · intro c hc
    simp only [List.mem_append, List.mem_filter, Memory.slice, Bool.and_eq_true, decide_eq_true_eq] at hc
    omega
  · intro c hc
    simpa using (List.mem_filter.mp hc).2
  · intro c hc
    have := (List.mem_filter.mp hc).2
    simp only [Bool.and_eq_true, decide_eq_true_eq] at this
    exact this.1
  · intro c hc
    simpa using (List.mem_filter.mp hc).2
theorem Memory.wf_nil : Memory.wf [] = true := rfl

/-! ## Reading after writing -/

/-- Nothing is listed below the first address of a canonical memory. -/
theorem Memory.get_below {m : Memory} {lo a : Nat} (w : Memory.wfFrom lo m = true) (h : a < lo) :
    m.get a = Memory.blank := by
  induction m generalizing lo with
  | nil => rfl
  | cons c t ih =>
    simp only [Memory.wfFrom, Bool.and_eq_true, decide_eq_true_eq] at w
    unfold Memory.get
    rw [if_neg (by omega)]
    exact ih w.2 (by omega)
theorem Memory.get_cons (m : Memory) (a : Nat) (v : Byte) (b : Nat) (n : ∀ c ∈ m, c.1 ≠ a) :
    (Memory.cons a v m).get b = if b = a then v else m.get b := by
  have hb : m.get a = Memory.blank := by
    induction m with
    | nil => rfl
    | cons c t ih =>
      unfold Memory.get
      rw [if_neg (fun e => n c (List.mem_cons_self ..) e.symm)]
      exact ih (fun c hc => n c (List.mem_cons_of_mem _ hc))
  unfold Memory.cons
  split
  · next hv =>
    split
    · next e => rw [e, hb, hv]
    · rfl
  · rfl
theorem Memory.get_insert (m : Memory) (a : Nat) (v : Byte) (b : Nat) (n : ∀ c ∈ m, c.1 ≠ a) :
    (Memory.insert m a v).get b = if b = a then v else m.get b := by
  induction m with
  | nil => exact Memory.get_cons [] a v b n
  | cons c t ih =>
    obtain ⟨k, x⟩ := c
    have hk : k ≠ a := n (k, x) (List.mem_cons_self ..)
    unfold Memory.insert
    split
    · exact Memory.get_cons _ a v b n
    · have ih := ih (fun c hc => n c (List.mem_cons_of_mem _ hc))
      show (if b = k then x else (Memory.insert t a v).get b) = if b = a then v else if b = k then x else Memory.get t b
      rw [ih]
      split
      · next e => rw [if_neg (by omega)]
      · rfl
theorem Memory.get_filter (m : Memory) (a b : Nat) (h : b ≠ a) :
    Memory.get (m.filter (fun c => c.1 ≠ a)) b = m.get b := by
  induction m with
  | nil => rfl
  | cons c t ih =>
    rw [List.filter_cons]
    split
    · show (if b = c.1 then c.2 else Memory.get _ b) = if b = c.1 then c.2 else Memory.get t b
      rw [ih]
    · next e =>
      rw [ih]
      have : c.1 = a := by simpa using e
      show Memory.get t b = if b = c.1 then c.2 else Memory.get t b
      rw [if_neg (by omega)]
/-- A read after a write of one byte. -/
theorem Memory.get_set (m : Memory) (a b : Nat) (v : Byte) : (m.set a v).get b = if b = a then v else m.get b := by
  unfold Memory.set
  rw [Memory.get_insert _ a v b (fun c hc => by simpa using (List.mem_filter.mp hc).2)]
  split
  · rfl
  · exact Memory.get_filter m a b (by assumption)
/-- A write leaves every byte outside it alone. -/
theorem Memory.get_write_out (m : Memory) (a b : Nat) (bs : List Byte) (h : b < a ∨ a + bs.length ≤ b) :
    (m.write a bs).get b = m.get b := by
  induction bs generalizing m a with
  | nil => rfl
  | cons x xs ih =>
    simp only [List.length_cons] at h
    show ((m.set a x).write (a + 1) xs).get b = _
    rw [ih _ _ (by omega), Memory.get_set, if_neg (by omega)]
/-- A read of a byte that a write covers. -/
theorem Memory.get_write_in (m : Memory) (a : Nat) (bs : List Byte) (i : Nat) (h : i < bs.length) :
    (m.write a bs).get (a + i) = bs[i] := by
  induction bs generalizing m a i with
  | nil => exact absurd h (Nat.not_lt_zero i)
  | cons x xs ih =>
    show ((m.set a x).write (a + 1) xs).get (a + i) = _
    cases i with
    | zero => rw [Memory.get_write_out _ _ _ _ (by omega), Memory.get_set, if_pos (Nat.add_zero a)]; rfl
    | succ i =>
      have := ih (m.set a x) (a + 1) i (by simpa using h)
      rw [show a + (i + 1) = a + 1 + i by omega, this]
      rfl
/-- A read in a part of a memory: the cells that p keeps are read as before, the others as blank. -/
theorem Memory.get_keep (m : Memory) (p : Nat → Bool) (b : Nat) :
    Memory.get (m.filter (fun c => p c.1)) b = if p b then m.get b else Memory.blank := by
  induction m with
  | nil => simp [Memory.get]
  | cons c t ih =>
    rw [List.filter_cons]
    split
    · next e =>
      show (if b = c.1 then c.2 else Memory.get _ b) = _
      rw [ih]
      by_cases hb : b = c.1
      · subst hb; rw [if_pos rfl, if_pos e]; simp [Memory.get]
      · rw [if_neg hb]; simp [Memory.get, hb]
    · next e =>
      rw [ih]
      by_cases hb : b = c.1
      · subst hb; rw [if_neg e, if_neg e]
      · simp [Memory.get, hb]
theorem Memory.get_of_none {m : Memory} {b : Nat} (h : ∀ c ∈ m, c.1 ≠ b) : m.get b = Memory.blank := by
  induction m with
  | nil => rfl
  | cons c t ih =>
    unfold Memory.get
    rw [if_neg (fun e => h c (List.mem_cons_self ..) e.symm)]
    exact ih (fun d hd => h d (List.mem_cons_of_mem _ hd))
/-- A read in two memories, one after the other, where one of them does not list the address. -/
theorem Memory.get_append_right {m : Memory} {b : Nat} (n : Memory) (h : ∀ c ∈ m, c.1 ≠ b) :
    Memory.get (m ++ n) b = n.get b := by
  induction m with
  | nil => rfl
  | cons c t ih =>
    show (if b = c.1 then c.2 else Memory.get (t ++ n) b) = _
    rw [if_neg (fun e => h c (List.mem_cons_self ..) e.symm)]
    exact ih (fun d hd => h d (List.mem_cons_of_mem _ hd))
theorem Memory.get_append_left (m : Memory) {n : Memory} {b : Nat} (h : ∀ c ∈ n, c.1 ≠ b) :
    Memory.get (m ++ n) b = m.get b := by
  induction m with
  | nil => exact Memory.get_of_none h
  | cons c t ih =>
    show (if b = c.1 then c.2 else Memory.get (t ++ n) b) = if b = c.1 then c.2 else Memory.get t b
    rw [ih]
/-- A read after a range was replaced. -/
theorem Memory.get_splice (m n : Memory) (lo hi b : Nat) :
    (m.splice lo hi n).get b = if lo ≤ b ∧ b < hi then n.get b else m.get b := by
  have low := Memory.get_keep m (fun a => a < lo) b
  have mid := Memory.get_keep n (fun a => lo ≤ a && a < hi) b
  have top := Memory.get_keep m (fun a => max lo hi ≤ a) b
  have nl (h : ¬ b < lo) : ∀ c ∈ m.filter (fun c => c.1 < lo), c.1 ≠ b := fun c hc => by
    simp only [List.mem_filter, decide_eq_true_eq] at hc; omega
  have nm (h : ¬ (lo ≤ b ∧ b < hi)) : ∀ c ∈ n.filter (fun c => lo ≤ c.1 && c.1 < hi), c.1 ≠ b := fun c hc => by
    simp only [List.mem_filter, Bool.and_eq_true, decide_eq_true_eq] at hc; omega
  have nt (h : b < max lo hi) : ∀ c ∈ m.filter (fun c => max lo hi ≤ c.1), c.1 ≠ b := fun c hc => by
    simp only [List.mem_filter, decide_eq_true_eq] at hc; omega
  unfold Memory.splice Memory.slice
  by_cases h1 : b < lo
  · rw [Memory.get_append_left _ (nt (by omega)), Memory.get_append_left _ (nm (by omega)), low]
    simp [h1, show ¬ lo ≤ b by omega]
  · by_cases h2 : b < hi
    · rw [Memory.get_append_left _ (nt (by omega)), Memory.get_append_right _ (nl h1), mid]
      simp [h2, show lo ≤ b by omega]
    · rw [List.append_assoc, Memory.get_append_right _ (nl h1), Memory.get_append_right _ (nm (by omega)), top]
      simp [h2, show max lo hi ≤ b by omega]
/-- A write at addresses leaves every other byte alone. -/
theorem Memory.get_writeAt_out (m : Memory) (bs : List (Nat × Byte)) (b : Nat) (h : ∀ x ∈ bs, x.1 ≠ b) :
    (m.writeAt bs).get b = m.get b := by
  induction bs generalizing m with
  | nil => rfl
  | cons x xs ih =>
    show ((m.set x.1 x.2).writeAt xs).get b = _
    rw [ih _ (fun y hy => h y (List.mem_cons_of_mem _ hy)), Memory.get_set,
      if_neg (fun e => h x (List.mem_cons_self ..) e.symm)]

end Sys2Proof.Machine
end

