-- ==== Sys2Proof/Laws/State.lean ====
section
/-! SUPPORT. What each update of the state leaves alone: one lemma for each field and each update, so that no proof
unfolds a record update. -/

namespace Sys2Proof.Machine

/-! ### setG -/

@[simp] theorem State.setG_run (s : State) (i : GReg) (x : Word) :
    (s.setG i x).run = s.run := by
  unfold State.setG; split <;> rfl
@[simp] theorem State.setG_rank (s : State) (i : GReg) (x : Word) :
    (s.setG i x).rank = s.rank := by
  unfold State.setG; split <;> rfl
@[simp] theorem State.setG_core (s : State) (i : GReg) (x : Word) :
    (s.setG i x).core = s.core := by
  unfold State.setG; split <;> rfl
@[simp] theorem State.setG_mem (s : State) (i : GReg) (x : Word) :
    (s.setG i x).mem = s.mem := by
  unfold State.setG; split <;> rfl
@[simp] theorem State.setG_sram (s : State) (i : GReg) (x : Word) :
    (s.setG i x).sram = s.sram := by
  unfold State.setG; split <;> rfl
@[simp] theorem State.setG_pending (s : State) (i : GReg) (x : Word) :
    (s.setG i x).pending = s.pending := by
  unfold State.setG; split <;> rfl
@[simp] theorem State.setG_doing (s : State) (i : GReg) (x : Word) :
    (s.setG i x).doing = s.doing := by
  unfold State.setG; split <;> rfl
@[simp] theorem State.setG_time (s : State) (i : GReg) (x : Word) :
    (s.setG i x).time = s.time := by
  unfold State.setG; split <;> rfl
@[simp] theorem State.setG_cycle (s : State) (i : GReg) (x : Word) :
    (s.setG i x).cycle = s.cycle := by
  unfold State.setG; split <;> rfl
@[simp] theorem State.setG_tick (s : State) (i : GReg) (x : Word) :
    (s.setG i x).tick = s.tick := by
  unfold State.setG; split <;> rfl
@[simp] theorem State.setG_mod (s : State) (i : GReg) (x : Word) :
    (s.setG i x).mod = s.mod := by
  unfold State.setG; split <;> rfl
@[simp] theorem State.setG_r_pc (s : State) (i : GReg) (x : Word) :
    (s.setG i x).r.pc = s.r.pc := by
  unfold State.setG; split <;> rfl
@[simp] theorem State.setG_r_p (s : State) (i : GReg) (x : Word) :
    (s.setG i x).r.p = s.r.p := by
  unfold State.setG; split <;> rfl
@[simp] theorem State.setG_r_v (s : State) (i : GReg) (x : Word) :
    (s.setG i x).r.v = s.r.v := by
  unfold State.setG; split <;> rfl
@[simp] theorem State.setG_r_m (s : State) (i : GReg) (x : Word) :
    (s.setG i x).r.m = s.r.m := by
  unfold State.setG; split <;> rfl
@[simp] theorem State.setG_r_t (s : State) (i : GReg) (x : Word) :
    (s.setG i x).r.t = s.r.t := by
  unfold State.setG; split <;> rfl
@[simp] theorem State.setG_r_c (s : State) (i : GReg) (x : Word) :
    (s.setG i x).r.c = s.r.c := by
  unfold State.setG; split <;> rfl
@[simp] theorem State.setG_r_q (s : State) (i : GReg) (x : Word) :
    (s.setG i x).r.q = s.r.q := by
  unfold State.setG; split <;> rfl
@[simp] theorem State.setG_r_k (s : State) (i : GReg) (x : Word) :
    (s.setG i x).r.k = s.r.k := by
  unfold State.setG; split <;> rfl
@[simp] theorem State.setG_r_lc (s : State) (i : GReg) (x : Word) :
    (s.setG i x).r.lc = s.r.lc := by
  unfold State.setG; split <;> rfl
@[simp] theorem State.setG_r_mx (s : State) (i : GReg) (x : Word) :
    (s.setG i x).r.mx = s.r.mx := by
  unfold State.setG; split <;> rfl
@[simp] theorem State.setG_r_mxflag (s : State) (i : GReg) (x : Word) :
    (s.setG i x).r.mxflag = s.r.mxflag := by
  unfold State.setG; split <;> rfl
@[simp] theorem State.setG_r_tcfg (s : State) (i : GReg) (x : Word) :
    (s.setG i x).r.tcfg = s.r.tcfg := by
  unfold State.setG; split <;> rfl
@[simp] theorem State.setG_r_fe (s : State) (i : GReg) (x : Word) :
    (s.setG i x).r.fe = s.r.fe := by
  unfold State.setG; split <;> rfl
@[simp] theorem State.setG_r_fpflags (s : State) (i : GReg) (x : Word) :
    (s.setG i x).r.fpflags = s.r.fpflags := by
  unfold State.setG; split <;> rfl
@[simp] theorem State.setG_r_coinseed (s : State) (i : GReg) (x : Word) :
    (s.setG i x).r.coinseed = s.r.coinseed := by
  unfold State.setG; split <;> rfl
@[simp] theorem State.setG_r_live (s : State) (i : GReg) (x : Word) :
    (s.setG i x).r.live = s.r.live := by
  unfold State.setG; split <;> rfl
@[simp] theorem State.setG_r_evstat (s : State) (i : GReg) (x : Word) :
    (s.setG i x).r.evstat = s.r.evstat := by
  unfold State.setG; split <;> rfl
@[simp] theorem State.setG_r_fstat (s : State) (i : GReg) (x : Word) :
    (s.setG i x).r.fstat = s.r.fstat := by
  unfold State.setG; split <;> rfl
@[simp] theorem State.setG_r_segseq (s : State) (i : GReg) (x : Word) :
    (s.setG i x).r.segseq = s.r.segseq := by
  unfold State.setG; split <;> rfl

/-! ### setP -/

@[simp] theorem State.setP_run (s : State) (i : PReg) (x : Bool) :
    (s.setP i x).run = s.run := by
  unfold State.setP; split <;> rfl
@[simp] theorem State.setP_rank (s : State) (i : PReg) (x : Bool) :
    (s.setP i x).rank = s.rank := by
  unfold State.setP; split <;> rfl
@[simp] theorem State.setP_core (s : State) (i : PReg) (x : Bool) :
    (s.setP i x).core = s.core := by
  unfold State.setP; split <;> rfl
@[simp] theorem State.setP_mem (s : State) (i : PReg) (x : Bool) :
    (s.setP i x).mem = s.mem := by
  unfold State.setP; split <;> rfl
@[simp] theorem State.setP_sram (s : State) (i : PReg) (x : Bool) :
    (s.setP i x).sram = s.sram := by
  unfold State.setP; split <;> rfl
@[simp] theorem State.setP_pending (s : State) (i : PReg) (x : Bool) :
    (s.setP i x).pending = s.pending := by
  unfold State.setP; split <;> rfl
@[simp] theorem State.setP_doing (s : State) (i : PReg) (x : Bool) :
    (s.setP i x).doing = s.doing := by
  unfold State.setP; split <;> rfl
@[simp] theorem State.setP_time (s : State) (i : PReg) (x : Bool) :
    (s.setP i x).time = s.time := by
  unfold State.setP; split <;> rfl
@[simp] theorem State.setP_cycle (s : State) (i : PReg) (x : Bool) :
    (s.setP i x).cycle = s.cycle := by
  unfold State.setP; split <;> rfl
@[simp] theorem State.setP_tick (s : State) (i : PReg) (x : Bool) :
    (s.setP i x).tick = s.tick := by
  unfold State.setP; split <;> rfl
@[simp] theorem State.setP_mod (s : State) (i : PReg) (x : Bool) :
    (s.setP i x).mod = s.mod := by
  unfold State.setP; split <;> rfl
@[simp] theorem State.setP_r_pc (s : State) (i : PReg) (x : Bool) :
    (s.setP i x).r.pc = s.r.pc := by
  unfold State.setP; split <;> rfl
@[simp] theorem State.setP_r_g (s : State) (i : PReg) (x : Bool) :
    (s.setP i x).r.g = s.r.g := by
  unfold State.setP; split <;> rfl
@[simp] theorem State.setP_r_v (s : State) (i : PReg) (x : Bool) :
    (s.setP i x).r.v = s.r.v := by
  unfold State.setP; split <;> rfl
@[simp] theorem State.setP_r_m (s : State) (i : PReg) (x : Bool) :
    (s.setP i x).r.m = s.r.m := by
  unfold State.setP; split <;> rfl
@[simp] theorem State.setP_r_t (s : State) (i : PReg) (x : Bool) :
    (s.setP i x).r.t = s.r.t := by
  unfold State.setP; split <;> rfl
@[simp] theorem State.setP_r_c (s : State) (i : PReg) (x : Bool) :
    (s.setP i x).r.c = s.r.c := by
  unfold State.setP; split <;> rfl
@[simp] theorem State.setP_r_q (s : State) (i : PReg) (x : Bool) :
    (s.setP i x).r.q = s.r.q := by
  unfold State.setP; split <;> rfl
@[simp] theorem State.setP_r_k (s : State) (i : PReg) (x : Bool) :
    (s.setP i x).r.k = s.r.k := by
  unfold State.setP; split <;> rfl
@[simp] theorem State.setP_r_lc (s : State) (i : PReg) (x : Bool) :
    (s.setP i x).r.lc = s.r.lc := by
  unfold State.setP; split <;> rfl
@[simp] theorem State.setP_r_mx (s : State) (i : PReg) (x : Bool) :
    (s.setP i x).r.mx = s.r.mx := by
  unfold State.setP; split <;> rfl
@[simp] theorem State.setP_r_mxflag (s : State) (i : PReg) (x : Bool) :
    (s.setP i x).r.mxflag = s.r.mxflag := by
  unfold State.setP; split <;> rfl
@[simp] theorem State.setP_r_tcfg (s : State) (i : PReg) (x : Bool) :
    (s.setP i x).r.tcfg = s.r.tcfg := by
  unfold State.setP; split <;> rfl
@[simp] theorem State.setP_r_fe (s : State) (i : PReg) (x : Bool) :
    (s.setP i x).r.fe = s.r.fe := by
  unfold State.setP; split <;> rfl
@[simp] theorem State.setP_r_fpflags (s : State) (i : PReg) (x : Bool) :
    (s.setP i x).r.fpflags = s.r.fpflags := by
  unfold State.setP; split <;> rfl
@[simp] theorem State.setP_r_coinseed (s : State) (i : PReg) (x : Bool) :
    (s.setP i x).r.coinseed = s.r.coinseed := by
  unfold State.setP; split <;> rfl
@[simp] theorem State.setP_r_live (s : State) (i : PReg) (x : Bool) :
    (s.setP i x).r.live = s.r.live := by
  unfold State.setP; split <;> rfl
@[simp] theorem State.setP_r_evstat (s : State) (i : PReg) (x : Bool) :
    (s.setP i x).r.evstat = s.r.evstat := by
  unfold State.setP; split <;> rfl
@[simp] theorem State.setP_r_fstat (s : State) (i : PReg) (x : Bool) :
    (s.setP i x).r.fstat = s.r.fstat := by
  unfold State.setP; split <;> rfl
@[simp] theorem State.setP_r_segseq (s : State) (i : PReg) (x : Bool) :
    (s.setP i x).r.segseq = s.r.segseq := by
  unfold State.setP; split <;> rfl

/-! ### setEvstat -/

@[simp] theorem State.setEvstat_run (s : State) (w : Word) :
    (s.setEvstat w).run = s.run := rfl
@[simp] theorem State.setEvstat_rank (s : State) (w : Word) :
    (s.setEvstat w).rank = s.rank := rfl
@[simp] theorem State.setEvstat_core (s : State) (w : Word) :
    (s.setEvstat w).core = s.core := rfl
@[simp] theorem State.setEvstat_mem (s : State) (w : Word) :
    (s.setEvstat w).mem = s.mem := rfl
@[simp] theorem State.setEvstat_sram (s : State) (w : Word) :
    (s.setEvstat w).sram = s.sram := rfl
@[simp] theorem State.setEvstat_pending (s : State) (w : Word) :
    (s.setEvstat w).pending = s.pending := rfl
@[simp] theorem State.setEvstat_doing (s : State) (w : Word) :
    (s.setEvstat w).doing = s.doing := rfl
@[simp] theorem State.setEvstat_time (s : State) (w : Word) :
    (s.setEvstat w).time = s.time := rfl
@[simp] theorem State.setEvstat_cycle (s : State) (w : Word) :
    (s.setEvstat w).cycle = s.cycle := rfl
@[simp] theorem State.setEvstat_tick (s : State) (w : Word) :
    (s.setEvstat w).tick = s.tick := rfl
@[simp] theorem State.setEvstat_mod (s : State) (w : Word) :
    (s.setEvstat w).mod = s.mod := rfl
@[simp] theorem State.setEvstat_r_pc (s : State) (w : Word) :
    (s.setEvstat w).r.pc = s.r.pc := rfl
@[simp] theorem State.setEvstat_r_g (s : State) (w : Word) :
    (s.setEvstat w).r.g = s.r.g := rfl
@[simp] theorem State.setEvstat_r_p (s : State) (w : Word) :
    (s.setEvstat w).r.p = s.r.p := rfl
@[simp] theorem State.setEvstat_r_v (s : State) (w : Word) :
    (s.setEvstat w).r.v = s.r.v := rfl
@[simp] theorem State.setEvstat_r_m (s : State) (w : Word) :
    (s.setEvstat w).r.m = s.r.m := rfl
@[simp] theorem State.setEvstat_r_t (s : State) (w : Word) :
    (s.setEvstat w).r.t = s.r.t := rfl
@[simp] theorem State.setEvstat_r_c (s : State) (w : Word) :
    (s.setEvstat w).r.c = s.r.c := rfl
@[simp] theorem State.setEvstat_r_q (s : State) (w : Word) :
    (s.setEvstat w).r.q = s.r.q := rfl
@[simp] theorem State.setEvstat_r_k (s : State) (w : Word) :
    (s.setEvstat w).r.k = s.r.k := rfl
@[simp] theorem State.setEvstat_r_lc (s : State) (w : Word) :
    (s.setEvstat w).r.lc = s.r.lc := rfl
@[simp] theorem State.setEvstat_r_mx (s : State) (w : Word) :
    (s.setEvstat w).r.mx = s.r.mx := rfl
@[simp] theorem State.setEvstat_r_mxflag (s : State) (w : Word) :
    (s.setEvstat w).r.mxflag = s.r.mxflag := rfl
@[simp] theorem State.setEvstat_r_tcfg (s : State) (w : Word) :
    (s.setEvstat w).r.tcfg = s.r.tcfg := rfl
@[simp] theorem State.setEvstat_r_fe (s : State) (w : Word) :
    (s.setEvstat w).r.fe = s.r.fe := rfl
@[simp] theorem State.setEvstat_r_fpflags (s : State) (w : Word) :
    (s.setEvstat w).r.fpflags = s.r.fpflags := rfl
@[simp] theorem State.setEvstat_r_coinseed (s : State) (w : Word) :
    (s.setEvstat w).r.coinseed = s.r.coinseed := rfl
@[simp] theorem State.setEvstat_r_live (s : State) (w : Word) :
    (s.setEvstat w).r.live = s.r.live := rfl
@[simp] theorem State.setEvstat_r_fstat (s : State) (w : Word) :
    (s.setEvstat w).r.fstat = s.r.fstat := rfl
@[simp] theorem State.setEvstat_r_segseq (s : State) (w : Word) :
    (s.setEvstat w).r.segseq = s.r.segseq := rfl

/-! ### setStatus -/

@[simp] theorem State.setStatus_run (s : State) (st : Status) (ev inst alt : Nat) :
    (s.setStatus st ev inst alt).run = s.run := (State.setP_run (s.setEvstat (evstatWord st ev inst alt)) 1 st.ok).trans (State.setEvstat_run s _)
@[simp] theorem State.setStatus_rank (s : State) (st : Status) (ev inst alt : Nat) :
    (s.setStatus st ev inst alt).rank = s.rank := (State.setP_rank (s.setEvstat (evstatWord st ev inst alt)) 1 st.ok).trans (State.setEvstat_rank s _)
@[simp] theorem State.setStatus_core (s : State) (st : Status) (ev inst alt : Nat) :
    (s.setStatus st ev inst alt).core = s.core := (State.setP_core (s.setEvstat (evstatWord st ev inst alt)) 1 st.ok).trans (State.setEvstat_core s _)
@[simp] theorem State.setStatus_mem (s : State) (st : Status) (ev inst alt : Nat) :
    (s.setStatus st ev inst alt).mem = s.mem := (State.setP_mem (s.setEvstat (evstatWord st ev inst alt)) 1 st.ok).trans (State.setEvstat_mem s _)
@[simp] theorem State.setStatus_sram (s : State) (st : Status) (ev inst alt : Nat) :
    (s.setStatus st ev inst alt).sram = s.sram := (State.setP_sram (s.setEvstat (evstatWord st ev inst alt)) 1 st.ok).trans (State.setEvstat_sram s _)
@[simp] theorem State.setStatus_pending (s : State) (st : Status) (ev inst alt : Nat) :
    (s.setStatus st ev inst alt).pending = s.pending := (State.setP_pending (s.setEvstat (evstatWord st ev inst alt)) 1 st.ok).trans (State.setEvstat_pending s _)
@[simp] theorem State.setStatus_doing (s : State) (st : Status) (ev inst alt : Nat) :
    (s.setStatus st ev inst alt).doing = s.doing := (State.setP_doing (s.setEvstat (evstatWord st ev inst alt)) 1 st.ok).trans (State.setEvstat_doing s _)
@[simp] theorem State.setStatus_time (s : State) (st : Status) (ev inst alt : Nat) :
    (s.setStatus st ev inst alt).time = s.time := (State.setP_time (s.setEvstat (evstatWord st ev inst alt)) 1 st.ok).trans (State.setEvstat_time s _)
@[simp] theorem State.setStatus_cycle (s : State) (st : Status) (ev inst alt : Nat) :
    (s.setStatus st ev inst alt).cycle = s.cycle := (State.setP_cycle (s.setEvstat (evstatWord st ev inst alt)) 1 st.ok).trans (State.setEvstat_cycle s _)
@[simp] theorem State.setStatus_tick (s : State) (st : Status) (ev inst alt : Nat) :
    (s.setStatus st ev inst alt).tick = s.tick := (State.setP_tick (s.setEvstat (evstatWord st ev inst alt)) 1 st.ok).trans (State.setEvstat_tick s _)
@[simp] theorem State.setStatus_mod (s : State) (st : Status) (ev inst alt : Nat) :
    (s.setStatus st ev inst alt).mod = s.mod := (State.setP_mod (s.setEvstat (evstatWord st ev inst alt)) 1 st.ok).trans (State.setEvstat_mod s _)
@[simp] theorem State.setStatus_r_pc (s : State) (st : Status) (ev inst alt : Nat) :
    (s.setStatus st ev inst alt).r.pc = s.r.pc := (State.setP_r_pc (s.setEvstat (evstatWord st ev inst alt)) 1 st.ok).trans (State.setEvstat_r_pc s _)
@[simp] theorem State.setStatus_r_g (s : State) (st : Status) (ev inst alt : Nat) :
    (s.setStatus st ev inst alt).r.g = s.r.g := (State.setP_r_g (s.setEvstat (evstatWord st ev inst alt)) 1 st.ok).trans (State.setEvstat_r_g s _)
@[simp] theorem State.setStatus_r_v (s : State) (st : Status) (ev inst alt : Nat) :
    (s.setStatus st ev inst alt).r.v = s.r.v := (State.setP_r_v (s.setEvstat (evstatWord st ev inst alt)) 1 st.ok).trans (State.setEvstat_r_v s _)
@[simp] theorem State.setStatus_r_m (s : State) (st : Status) (ev inst alt : Nat) :
    (s.setStatus st ev inst alt).r.m = s.r.m := (State.setP_r_m (s.setEvstat (evstatWord st ev inst alt)) 1 st.ok).trans (State.setEvstat_r_m s _)
@[simp] theorem State.setStatus_r_t (s : State) (st : Status) (ev inst alt : Nat) :
    (s.setStatus st ev inst alt).r.t = s.r.t := (State.setP_r_t (s.setEvstat (evstatWord st ev inst alt)) 1 st.ok).trans (State.setEvstat_r_t s _)
@[simp] theorem State.setStatus_r_c (s : State) (st : Status) (ev inst alt : Nat) :
    (s.setStatus st ev inst alt).r.c = s.r.c := (State.setP_r_c (s.setEvstat (evstatWord st ev inst alt)) 1 st.ok).trans (State.setEvstat_r_c s _)
@[simp] theorem State.setStatus_r_q (s : State) (st : Status) (ev inst alt : Nat) :
    (s.setStatus st ev inst alt).r.q = s.r.q := (State.setP_r_q (s.setEvstat (evstatWord st ev inst alt)) 1 st.ok).trans (State.setEvstat_r_q s _)
@[simp] theorem State.setStatus_r_k (s : State) (st : Status) (ev inst alt : Nat) :
    (s.setStatus st ev inst alt).r.k = s.r.k := (State.setP_r_k (s.setEvstat (evstatWord st ev inst alt)) 1 st.ok).trans (State.setEvstat_r_k s _)
@[simp] theorem State.setStatus_r_lc (s : State) (st : Status) (ev inst alt : Nat) :
    (s.setStatus st ev inst alt).r.lc = s.r.lc := (State.setP_r_lc (s.setEvstat (evstatWord st ev inst alt)) 1 st.ok).trans (State.setEvstat_r_lc s _)
@[simp] theorem State.setStatus_r_mx (s : State) (st : Status) (ev inst alt : Nat) :
    (s.setStatus st ev inst alt).r.mx = s.r.mx := (State.setP_r_mx (s.setEvstat (evstatWord st ev inst alt)) 1 st.ok).trans (State.setEvstat_r_mx s _)
@[simp] theorem State.setStatus_r_mxflag (s : State) (st : Status) (ev inst alt : Nat) :
    (s.setStatus st ev inst alt).r.mxflag = s.r.mxflag := (State.setP_r_mxflag (s.setEvstat (evstatWord st ev inst alt)) 1 st.ok).trans (State.setEvstat_r_mxflag s _)
@[simp] theorem State.setStatus_r_tcfg (s : State) (st : Status) (ev inst alt : Nat) :
    (s.setStatus st ev inst alt).r.tcfg = s.r.tcfg := (State.setP_r_tcfg (s.setEvstat (evstatWord st ev inst alt)) 1 st.ok).trans (State.setEvstat_r_tcfg s _)
@[simp] theorem State.setStatus_r_fe (s : State) (st : Status) (ev inst alt : Nat) :
    (s.setStatus st ev inst alt).r.fe = s.r.fe := (State.setP_r_fe (s.setEvstat (evstatWord st ev inst alt)) 1 st.ok).trans (State.setEvstat_r_fe s _)
@[simp] theorem State.setStatus_r_fpflags (s : State) (st : Status) (ev inst alt : Nat) :
    (s.setStatus st ev inst alt).r.fpflags = s.r.fpflags := (State.setP_r_fpflags (s.setEvstat (evstatWord st ev inst alt)) 1 st.ok).trans (State.setEvstat_r_fpflags s _)
@[simp] theorem State.setStatus_r_coinseed (s : State) (st : Status) (ev inst alt : Nat) :
    (s.setStatus st ev inst alt).r.coinseed = s.r.coinseed := (State.setP_r_coinseed (s.setEvstat (evstatWord st ev inst alt)) 1 st.ok).trans (State.setEvstat_r_coinseed s _)
@[simp] theorem State.setStatus_r_live (s : State) (st : Status) (ev inst alt : Nat) :
    (s.setStatus st ev inst alt).r.live = s.r.live := (State.setP_r_live (s.setEvstat (evstatWord st ev inst alt)) 1 st.ok).trans (State.setEvstat_r_live s _)
@[simp] theorem State.setStatus_r_fstat (s : State) (st : Status) (ev inst alt : Nat) :
    (s.setStatus st ev inst alt).r.fstat = s.r.fstat := (State.setP_r_fstat (s.setEvstat (evstatWord st ev inst alt)) 1 st.ok).trans (State.setEvstat_r_fstat s _)
@[simp] theorem State.setStatus_r_segseq (s : State) (st : Status) (ev inst alt : Nat) :
    (s.setStatus st ev inst alt).r.segseq = s.r.segseq := (State.setP_r_segseq (s.setEvstat (evstatWord st ev inst alt)) 1 st.ok).trans (State.setEvstat_r_segseq s _)

/-! ### orFlags -/

@[simp] theorem State.orFlags_run (s : State) (fe : Bool) (f : BitVec 6) :
    (s.orFlags fe f).run = s.run := by
  unfold State.orFlags; split <;> rfl
@[simp] theorem State.orFlags_rank (s : State) (fe : Bool) (f : BitVec 6) :
    (s.orFlags fe f).rank = s.rank := by
  unfold State.orFlags; split <;> rfl
@[simp] theorem State.orFlags_core (s : State) (fe : Bool) (f : BitVec 6) :
    (s.orFlags fe f).core = s.core := by
  unfold State.orFlags; split <;> rfl
@[simp] theorem State.orFlags_mem (s : State) (fe : Bool) (f : BitVec 6) :
    (s.orFlags fe f).mem = s.mem := by
  unfold State.orFlags; split <;> rfl
@[simp] theorem State.orFlags_sram (s : State) (fe : Bool) (f : BitVec 6) :
    (s.orFlags fe f).sram = s.sram := by
  unfold State.orFlags; split <;> rfl
@[simp] theorem State.orFlags_pending (s : State) (fe : Bool) (f : BitVec 6) :
    (s.orFlags fe f).pending = s.pending := by
  unfold State.orFlags; split <;> rfl
@[simp] theorem State.orFlags_doing (s : State) (fe : Bool) (f : BitVec 6) :
    (s.orFlags fe f).doing = s.doing := by
  unfold State.orFlags; split <;> rfl
@[simp] theorem State.orFlags_time (s : State) (fe : Bool) (f : BitVec 6) :
    (s.orFlags fe f).time = s.time := by
  unfold State.orFlags; split <;> rfl
@[simp] theorem State.orFlags_cycle (s : State) (fe : Bool) (f : BitVec 6) :
    (s.orFlags fe f).cycle = s.cycle := by
  unfold State.orFlags; split <;> rfl
@[simp] theorem State.orFlags_tick (s : State) (fe : Bool) (f : BitVec 6) :
    (s.orFlags fe f).tick = s.tick := by
  unfold State.orFlags; split <;> rfl
@[simp] theorem State.orFlags_mod (s : State) (fe : Bool) (f : BitVec 6) :
    (s.orFlags fe f).mod = s.mod := by
  unfold State.orFlags; split <;> rfl
@[simp] theorem State.orFlags_r_pc (s : State) (fe : Bool) (f : BitVec 6) :
    (s.orFlags fe f).r.pc = s.r.pc := by
  unfold State.orFlags; split <;> rfl
@[simp] theorem State.orFlags_r_g (s : State) (fe : Bool) (f : BitVec 6) :
    (s.orFlags fe f).r.g = s.r.g := by
  unfold State.orFlags; split <;> rfl
@[simp] theorem State.orFlags_r_p (s : State) (fe : Bool) (f : BitVec 6) :
    (s.orFlags fe f).r.p = s.r.p := by
  unfold State.orFlags; split <;> rfl
@[simp] theorem State.orFlags_r_v (s : State) (fe : Bool) (f : BitVec 6) :
    (s.orFlags fe f).r.v = s.r.v := by
  unfold State.orFlags; split <;> rfl
@[simp] theorem State.orFlags_r_m (s : State) (fe : Bool) (f : BitVec 6) :
    (s.orFlags fe f).r.m = s.r.m := by
  unfold State.orFlags; split <;> rfl
@[simp] theorem State.orFlags_r_t (s : State) (fe : Bool) (f : BitVec 6) :
    (s.orFlags fe f).r.t = s.r.t := by
  unfold State.orFlags; split <;> rfl
@[simp] theorem State.orFlags_r_c (s : State) (fe : Bool) (f : BitVec 6) :
    (s.orFlags fe f).r.c = s.r.c := by
  unfold State.orFlags; split <;> rfl
@[simp] theorem State.orFlags_r_q (s : State) (fe : Bool) (f : BitVec 6) :
    (s.orFlags fe f).r.q = s.r.q := by
  unfold State.orFlags; split <;> rfl
@[simp] theorem State.orFlags_r_k (s : State) (fe : Bool) (f : BitVec 6) :
    (s.orFlags fe f).r.k = s.r.k := by
  unfold State.orFlags; split <;> rfl
@[simp] theorem State.orFlags_r_lc (s : State) (fe : Bool) (f : BitVec 6) :
    (s.orFlags fe f).r.lc = s.r.lc := by
  unfold State.orFlags; split <;> rfl
@[simp] theorem State.orFlags_r_mx (s : State) (fe : Bool) (f : BitVec 6) :
    (s.orFlags fe f).r.mx = s.r.mx := by
  unfold State.orFlags; split <;> rfl
@[simp] theorem State.orFlags_r_mxflag (s : State) (fe : Bool) (f : BitVec 6) :
    (s.orFlags fe f).r.mxflag = s.r.mxflag := by
  unfold State.orFlags; split <;> rfl
@[simp] theorem State.orFlags_r_tcfg (s : State) (fe : Bool) (f : BitVec 6) :
    (s.orFlags fe f).r.tcfg = s.r.tcfg := by
  unfold State.orFlags; split <;> rfl
@[simp] theorem State.orFlags_r_fe (s : State) (fe : Bool) (f : BitVec 6) :
    (s.orFlags fe f).r.fe = s.r.fe := by
  unfold State.orFlags; split <;> rfl
@[simp] theorem State.orFlags_r_coinseed (s : State) (fe : Bool) (f : BitVec 6) :
    (s.orFlags fe f).r.coinseed = s.r.coinseed := by
  unfold State.orFlags; split <;> rfl
@[simp] theorem State.orFlags_r_live (s : State) (fe : Bool) (f : BitVec 6) :
    (s.orFlags fe f).r.live = s.r.live := by
  unfold State.orFlags; split <;> rfl
@[simp] theorem State.orFlags_r_evstat (s : State) (fe : Bool) (f : BitVec 6) :
    (s.orFlags fe f).r.evstat = s.r.evstat := by
  unfold State.orFlags; split <;> rfl
@[simp] theorem State.orFlags_r_fstat (s : State) (fe : Bool) (f : BitVec 6) :
    (s.orFlags fe f).r.fstat = s.r.fstat := by
  unfold State.orFlags; split <;> rfl
@[simp] theorem State.orFlags_r_segseq (s : State) (fe : Bool) (f : BitVec 6) :
    (s.orFlags fe f).r.segseq = s.r.segseq := by
  unfold State.orFlags; split <;> rfl

/-! ### retireTo -/

@[simp] theorem State.retireTo_rank (s : State) (lc : Vector Lc 2) (pc : Word) :
    (s.retireTo lc pc).rank = s.rank := rfl
@[simp] theorem State.retireTo_core (s : State) (lc : Vector Lc 2) (pc : Word) :
    (s.retireTo lc pc).core = s.core := rfl
@[simp] theorem State.retireTo_mem (s : State) (lc : Vector Lc 2) (pc : Word) :
    (s.retireTo lc pc).mem = s.mem := rfl
@[simp] theorem State.retireTo_sram (s : State) (lc : Vector Lc 2) (pc : Word) :
    (s.retireTo lc pc).sram = s.sram := rfl
@[simp] theorem State.retireTo_pending (s : State) (lc : Vector Lc 2) (pc : Word) :
    (s.retireTo lc pc).pending = s.pending := rfl
@[simp] theorem State.retireTo_doing (s : State) (lc : Vector Lc 2) (pc : Word) :
    (s.retireTo lc pc).doing = s.doing := rfl
@[simp] theorem State.retireTo_time (s : State) (lc : Vector Lc 2) (pc : Word) :
    (s.retireTo lc pc).time = s.time := rfl
@[simp] theorem State.retireTo_cycle (s : State) (lc : Vector Lc 2) (pc : Word) :
    (s.retireTo lc pc).cycle = s.cycle := rfl
@[simp] theorem State.retireTo_tick (s : State) (lc : Vector Lc 2) (pc : Word) :
    (s.retireTo lc pc).tick = s.tick := rfl
@[simp] theorem State.retireTo_mod (s : State) (lc : Vector Lc 2) (pc : Word) :
    (s.retireTo lc pc).mod = s.mod := rfl
@[simp] theorem State.retireTo_r_g (s : State) (lc : Vector Lc 2) (pc : Word) :
    (s.retireTo lc pc).r.g = s.r.g := rfl
@[simp] theorem State.retireTo_r_p (s : State) (lc : Vector Lc 2) (pc : Word) :
    (s.retireTo lc pc).r.p = s.r.p := rfl
@[simp] theorem State.retireTo_r_v (s : State) (lc : Vector Lc 2) (pc : Word) :
    (s.retireTo lc pc).r.v = s.r.v := rfl
@[simp] theorem State.retireTo_r_m (s : State) (lc : Vector Lc 2) (pc : Word) :
    (s.retireTo lc pc).r.m = s.r.m := rfl
@[simp] theorem State.retireTo_r_t (s : State) (lc : Vector Lc 2) (pc : Word) :
    (s.retireTo lc pc).r.t = s.r.t := rfl
@[simp] theorem State.retireTo_r_c (s : State) (lc : Vector Lc 2) (pc : Word) :
    (s.retireTo lc pc).r.c = s.r.c := rfl
@[simp] theorem State.retireTo_r_q (s : State) (lc : Vector Lc 2) (pc : Word) :
    (s.retireTo lc pc).r.q = s.r.q := rfl
@[simp] theorem State.retireTo_r_k (s : State) (lc : Vector Lc 2) (pc : Word) :
    (s.retireTo lc pc).r.k = s.r.k := rfl
@[simp] theorem State.retireTo_r_mx (s : State) (lc : Vector Lc 2) (pc : Word) :
    (s.retireTo lc pc).r.mx = s.r.mx := rfl
@[simp] theorem State.retireTo_r_mxflag (s : State) (lc : Vector Lc 2) (pc : Word) :
    (s.retireTo lc pc).r.mxflag = s.r.mxflag := rfl
@[simp] theorem State.retireTo_r_tcfg (s : State) (lc : Vector Lc 2) (pc : Word) :
    (s.retireTo lc pc).r.tcfg = s.r.tcfg := rfl
@[simp] theorem State.retireTo_r_fe (s : State) (lc : Vector Lc 2) (pc : Word) :
    (s.retireTo lc pc).r.fe = s.r.fe := rfl
@[simp] theorem State.retireTo_r_fpflags (s : State) (lc : Vector Lc 2) (pc : Word) :
    (s.retireTo lc pc).r.fpflags = s.r.fpflags := rfl
@[simp] theorem State.retireTo_r_coinseed (s : State) (lc : Vector Lc 2) (pc : Word) :
    (s.retireTo lc pc).r.coinseed = s.r.coinseed := rfl
@[simp] theorem State.retireTo_r_live (s : State) (lc : Vector Lc 2) (pc : Word) :
    (s.retireTo lc pc).r.live = s.r.live := rfl
@[simp] theorem State.retireTo_r_evstat (s : State) (lc : Vector Lc 2) (pc : Word) :
    (s.retireTo lc pc).r.evstat = s.r.evstat := rfl
@[simp] theorem State.retireTo_r_fstat (s : State) (lc : Vector Lc 2) (pc : Word) :
    (s.retireTo lc pc).r.fstat = s.r.fstat := rfl
@[simp] theorem State.retireTo_r_segseq (s : State) (lc : Vector Lc 2) (pc : Word) :
    (s.retireTo lc pc).r.segseq = s.r.segseq := rfl

/-! ### retire -/

@[simp] theorem State.retire_rank (s : State) (n : Nat) :
    (s.retire n).rank = s.rank := State.retireTo_rank _ _ _
@[simp] theorem State.retire_core (s : State) (n : Nat) :
    (s.retire n).core = s.core := State.retireTo_core _ _ _
@[simp] theorem State.retire_mem (s : State) (n : Nat) :
    (s.retire n).mem = s.mem := State.retireTo_mem _ _ _
@[simp] theorem State.retire_sram (s : State) (n : Nat) :
    (s.retire n).sram = s.sram := State.retireTo_sram _ _ _
@[simp] theorem State.retire_pending (s : State) (n : Nat) :
    (s.retire n).pending = s.pending := State.retireTo_pending _ _ _
@[simp] theorem State.retire_doing (s : State) (n : Nat) :
    (s.retire n).doing = s.doing := State.retireTo_doing _ _ _
@[simp] theorem State.retire_time (s : State) (n : Nat) :
    (s.retire n).time = s.time := State.retireTo_time _ _ _
@[simp] theorem State.retire_cycle (s : State) (n : Nat) :
    (s.retire n).cycle = s.cycle := State.retireTo_cycle _ _ _
@[simp] theorem State.retire_tick (s : State) (n : Nat) :
    (s.retire n).tick = s.tick := State.retireTo_tick _ _ _
@[simp] theorem State.retire_mod (s : State) (n : Nat) :
    (s.retire n).mod = s.mod := State.retireTo_mod _ _ _
@[simp] theorem State.retire_r_g (s : State) (n : Nat) :
    (s.retire n).r.g = s.r.g := State.retireTo_r_g _ _ _
@[simp] theorem State.retire_r_p (s : State) (n : Nat) :
    (s.retire n).r.p = s.r.p := State.retireTo_r_p _ _ _
@[simp] theorem State.retire_r_v (s : State) (n : Nat) :
    (s.retire n).r.v = s.r.v := State.retireTo_r_v _ _ _
@[simp] theorem State.retire_r_m (s : State) (n : Nat) :
    (s.retire n).r.m = s.r.m := State.retireTo_r_m _ _ _
@[simp] theorem State.retire_r_t (s : State) (n : Nat) :
    (s.retire n).r.t = s.r.t := State.retireTo_r_t _ _ _
@[simp] theorem State.retire_r_c (s : State) (n : Nat) :
    (s.retire n).r.c = s.r.c := State.retireTo_r_c _ _ _
@[simp] theorem State.retire_r_q (s : State) (n : Nat) :
    (s.retire n).r.q = s.r.q := State.retireTo_r_q _ _ _
@[simp] theorem State.retire_r_k (s : State) (n : Nat) :
    (s.retire n).r.k = s.r.k := State.retireTo_r_k _ _ _
@[simp] theorem State.retire_r_mx (s : State) (n : Nat) :
    (s.retire n).r.mx = s.r.mx := State.retireTo_r_mx _ _ _
@[simp] theorem State.retire_r_mxflag (s : State) (n : Nat) :
    (s.retire n).r.mxflag = s.r.mxflag := State.retireTo_r_mxflag _ _ _
@[simp] theorem State.retire_r_tcfg (s : State) (n : Nat) :
    (s.retire n).r.tcfg = s.r.tcfg := State.retireTo_r_tcfg _ _ _
@[simp] theorem State.retire_r_fe (s : State) (n : Nat) :
    (s.retire n).r.fe = s.r.fe := State.retireTo_r_fe _ _ _
@[simp] theorem State.retire_r_fpflags (s : State) (n : Nat) :
    (s.retire n).r.fpflags = s.r.fpflags := State.retireTo_r_fpflags _ _ _
@[simp] theorem State.retire_r_coinseed (s : State) (n : Nat) :
    (s.retire n).r.coinseed = s.r.coinseed := State.retireTo_r_coinseed _ _ _
@[simp] theorem State.retire_r_live (s : State) (n : Nat) :
    (s.retire n).r.live = s.r.live := State.retireTo_r_live _ _ _
@[simp] theorem State.retire_r_evstat (s : State) (n : Nat) :
    (s.retire n).r.evstat = s.r.evstat := State.retireTo_r_evstat _ _ _
@[simp] theorem State.retire_r_fstat (s : State) (n : Nat) :
    (s.retire n).r.fstat = s.r.fstat := State.retireTo_r_fstat _ _ _
@[simp] theorem State.retire_r_segseq (s : State) (n : Nat) :
    (s.retire n).r.segseq = s.r.segseq := State.retireTo_r_segseq _ _ _

/-! ### jump -/

@[simp] theorem State.jump_rank (s : State) (a : Word) :
    (s.jump a).rank = s.rank := rfl
@[simp] theorem State.jump_core (s : State) (a : Word) :
    (s.jump a).core = s.core := rfl
@[simp] theorem State.jump_mem (s : State) (a : Word) :
    (s.jump a).mem = s.mem := rfl
@[simp] theorem State.jump_sram (s : State) (a : Word) :
    (s.jump a).sram = s.sram := rfl
@[simp] theorem State.jump_pending (s : State) (a : Word) :
    (s.jump a).pending = s.pending := rfl
@[simp] theorem State.jump_doing (s : State) (a : Word) :
    (s.jump a).doing = s.doing := rfl
@[simp] theorem State.jump_time (s : State) (a : Word) :
    (s.jump a).time = s.time := rfl
@[simp] theorem State.jump_cycle (s : State) (a : Word) :
    (s.jump a).cycle = s.cycle := rfl
@[simp] theorem State.jump_tick (s : State) (a : Word) :
    (s.jump a).tick = s.tick := rfl
@[simp] theorem State.jump_mod (s : State) (a : Word) :
    (s.jump a).mod = s.mod := rfl
@[simp] theorem State.jump_r_g (s : State) (a : Word) :
    (s.jump a).r.g = s.r.g := rfl
@[simp] theorem State.jump_r_p (s : State) (a : Word) :
    (s.jump a).r.p = s.r.p := rfl
@[simp] theorem State.jump_r_v (s : State) (a : Word) :
    (s.jump a).r.v = s.r.v := rfl
@[simp] theorem State.jump_r_m (s : State) (a : Word) :
    (s.jump a).r.m = s.r.m := rfl
@[simp] theorem State.jump_r_t (s : State) (a : Word) :
    (s.jump a).r.t = s.r.t := rfl
@[simp] theorem State.jump_r_c (s : State) (a : Word) :
    (s.jump a).r.c = s.r.c := rfl
@[simp] theorem State.jump_r_q (s : State) (a : Word) :
    (s.jump a).r.q = s.r.q := rfl
@[simp] theorem State.jump_r_k (s : State) (a : Word) :
    (s.jump a).r.k = s.r.k := rfl
@[simp] theorem State.jump_r_lc (s : State) (a : Word) :
    (s.jump a).r.lc = s.r.lc := rfl
@[simp] theorem State.jump_r_mx (s : State) (a : Word) :
    (s.jump a).r.mx = s.r.mx := rfl
@[simp] theorem State.jump_r_mxflag (s : State) (a : Word) :
    (s.jump a).r.mxflag = s.r.mxflag := rfl
@[simp] theorem State.jump_r_tcfg (s : State) (a : Word) :
    (s.jump a).r.tcfg = s.r.tcfg := rfl
@[simp] theorem State.jump_r_fe (s : State) (a : Word) :
    (s.jump a).r.fe = s.r.fe := rfl
@[simp] theorem State.jump_r_fpflags (s : State) (a : Word) :
    (s.jump a).r.fpflags = s.r.fpflags := rfl
@[simp] theorem State.jump_r_coinseed (s : State) (a : Word) :
    (s.jump a).r.coinseed = s.r.coinseed := rfl
@[simp] theorem State.jump_r_live (s : State) (a : Word) :
    (s.jump a).r.live = s.r.live := rfl
@[simp] theorem State.jump_r_evstat (s : State) (a : Word) :
    (s.jump a).r.evstat = s.r.evstat := rfl
@[simp] theorem State.jump_r_fstat (s : State) (a : Word) :
    (s.jump a).r.fstat = s.r.fstat := rfl
@[simp] theorem State.jump_r_segseq (s : State) (a : Word) :
    (s.jump a).r.segseq = s.r.segseq := rfl

/-! ### bufWrite -/

@[simp] theorem State.bufWrite_r (s : State) (b : Buf) (off : Nat) (bs : List Byte) :
    (s.bufWrite b off bs).r = s.r := rfl
@[simp] theorem State.bufWrite_run (s : State) (b : Buf) (off : Nat) (bs : List Byte) :
    (s.bufWrite b off bs).run = s.run := rfl
@[simp] theorem State.bufWrite_core (s : State) (b : Buf) (off : Nat) (bs : List Byte) :
    (s.bufWrite b off bs).core = s.core := rfl
@[simp] theorem State.bufWrite_mem (s : State) (b : Buf) (off : Nat) (bs : List Byte) :
    (s.bufWrite b off bs).mem = s.mem := rfl
@[simp] theorem State.bufWrite_sram (s : State) (b : Buf) (off : Nat) (bs : List Byte) :
    (s.bufWrite b off bs).sram = s.sram := rfl
@[simp] theorem State.bufWrite_pending (s : State) (b : Buf) (off : Nat) (bs : List Byte) :
    (s.bufWrite b off bs).pending = s.pending := rfl
@[simp] theorem State.bufWrite_doing (s : State) (b : Buf) (off : Nat) (bs : List Byte) :
    (s.bufWrite b off bs).doing = s.doing := rfl
@[simp] theorem State.bufWrite_time (s : State) (b : Buf) (off : Nat) (bs : List Byte) :
    (s.bufWrite b off bs).time = s.time := rfl
@[simp] theorem State.bufWrite_cycle (s : State) (b : Buf) (off : Nat) (bs : List Byte) :
    (s.bufWrite b off bs).cycle = s.cycle := rfl
@[simp] theorem State.bufWrite_tick (s : State) (b : Buf) (off : Nat) (bs : List Byte) :
    (s.bufWrite b off bs).tick = s.tick := rfl

/-! ### physWrite -/

@[simp] theorem State.physWrite_r (s : State) (pa : Nat) (bs : List Byte) :
    (s.physWrite pa bs).r = s.r := rfl
@[simp] theorem State.physWrite_run (s : State) (pa : Nat) (bs : List Byte) :
    (s.physWrite pa bs).run = s.run := rfl
@[simp] theorem State.physWrite_rank (s : State) (pa : Nat) (bs : List Byte) :
    (s.physWrite pa bs).rank = s.rank := rfl
@[simp] theorem State.physWrite_core (s : State) (pa : Nat) (bs : List Byte) :
    (s.physWrite pa bs).core = s.core := rfl
@[simp] theorem State.physWrite_sram (s : State) (pa : Nat) (bs : List Byte) :
    (s.physWrite pa bs).sram = s.sram := rfl
@[simp] theorem State.physWrite_pending (s : State) (pa : Nat) (bs : List Byte) :
    (s.physWrite pa bs).pending = s.pending := rfl
@[simp] theorem State.physWrite_doing (s : State) (pa : Nat) (bs : List Byte) :
    (s.physWrite pa bs).doing = s.doing := rfl
@[simp] theorem State.physWrite_time (s : State) (pa : Nat) (bs : List Byte) :
    (s.physWrite pa bs).time = s.time := rfl
@[simp] theorem State.physWrite_cycle (s : State) (pa : Nat) (bs : List Byte) :
    (s.physWrite pa bs).cycle = s.cycle := rfl
@[simp] theorem State.physWrite_tick (s : State) (pa : Nat) (bs : List Byte) :
    (s.physWrite pa bs).tick = s.tick := rfl

/-! ### physWriteAt -/

@[simp] theorem State.physWriteAt_r (s : State) (bs : List (Nat × Byte)) :
    (s.physWriteAt bs).r = s.r := rfl
@[simp] theorem State.physWriteAt_run (s : State) (bs : List (Nat × Byte)) :
    (s.physWriteAt bs).run = s.run := rfl
@[simp] theorem State.physWriteAt_rank (s : State) (bs : List (Nat × Byte)) :
    (s.physWriteAt bs).rank = s.rank := rfl
@[simp] theorem State.physWriteAt_core (s : State) (bs : List (Nat × Byte)) :
    (s.physWriteAt bs).core = s.core := rfl
@[simp] theorem State.physWriteAt_sram (s : State) (bs : List (Nat × Byte)) :
    (s.physWriteAt bs).sram = s.sram := rfl
@[simp] theorem State.physWriteAt_pending (s : State) (bs : List (Nat × Byte)) :
    (s.physWriteAt bs).pending = s.pending := rfl
@[simp] theorem State.physWriteAt_doing (s : State) (bs : List (Nat × Byte)) :
    (s.physWriteAt bs).doing = s.doing := rfl
@[simp] theorem State.physWriteAt_time (s : State) (bs : List (Nat × Byte)) :
    (s.physWriteAt bs).time = s.time := rfl
@[simp] theorem State.physWriteAt_cycle (s : State) (bs : List (Nat × Byte)) :
    (s.physWriteAt bs).cycle = s.cycle := rfl
@[simp] theorem State.physWriteAt_tick (s : State) (bs : List (Nat × Byte)) :
    (s.physWriteAt bs).tick = s.tick := rfl

/-! ### owe -/

@[simp] theorem State.owe_r (s : State) (o : Owed) :
    (s.owe o).r = s.r := rfl
@[simp] theorem State.owe_run (s : State) (o : Owed) :
    (s.owe o).run = s.run := rfl
@[simp] theorem State.owe_rank (s : State) (o : Owed) :
    (s.owe o).rank = s.rank := rfl
@[simp] theorem State.owe_core (s : State) (o : Owed) :
    (s.owe o).core = s.core := rfl
@[simp] theorem State.owe_mem (s : State) (o : Owed) :
    (s.owe o).mem = s.mem := rfl
@[simp] theorem State.owe_sram (s : State) (o : Owed) :
    (s.owe o).sram = s.sram := rfl
@[simp] theorem State.owe_doing (s : State) (o : Owed) :
    (s.owe o).doing = s.doing := rfl
@[simp] theorem State.owe_time (s : State) (o : Owed) :
    (s.owe o).time = s.time := rfl
@[simp] theorem State.owe_cycle (s : State) (o : Owed) :
    (s.owe o).cycle = s.cycle := rfl
@[simp] theorem State.owe_tick (s : State) (o : Owed) :
    (s.owe o).tick = s.tick := rfl
@[simp] theorem State.owe_mod (s : State) (o : Owed) :
    (s.owe o).mod = s.mod := rfl

/-! ### oweOnce -/

@[simp] theorem State.oweOnce_r (s : State) (o : Owed) :
    (s.oweOnce o).r = s.r := by
  unfold State.oweOnce; split <;> rfl
@[simp] theorem State.oweOnce_run (s : State) (o : Owed) :
    (s.oweOnce o).run = s.run := by
  unfold State.oweOnce; split <;> rfl
@[simp] theorem State.oweOnce_rank (s : State) (o : Owed) :
    (s.oweOnce o).rank = s.rank := by
  unfold State.oweOnce; split <;> rfl
@[simp] theorem State.oweOnce_core (s : State) (o : Owed) :
    (s.oweOnce o).core = s.core := by
  unfold State.oweOnce; split <;> rfl
@[simp] theorem State.oweOnce_mem (s : State) (o : Owed) :
    (s.oweOnce o).mem = s.mem := by
  unfold State.oweOnce; split <;> rfl
@[simp] theorem State.oweOnce_sram (s : State) (o : Owed) :
    (s.oweOnce o).sram = s.sram := by
  unfold State.oweOnce; split <;> rfl
@[simp] theorem State.oweOnce_doing (s : State) (o : Owed) :
    (s.oweOnce o).doing = s.doing := by
  unfold State.oweOnce; split <;> rfl
@[simp] theorem State.oweOnce_time (s : State) (o : Owed) :
    (s.oweOnce o).time = s.time := by
  unfold State.oweOnce; split <;> rfl
@[simp] theorem State.oweOnce_cycle (s : State) (o : Owed) :
    (s.oweOnce o).cycle = s.cycle := by
  unfold State.oweOnce; split <;> rfl
@[simp] theorem State.oweOnce_tick (s : State) (o : Owed) :
    (s.oweOnce o).tick = s.tick := by
  unfold State.oweOnce; split <;> rfl
@[simp] theorem State.oweOnce_mod (s : State) (o : Owed) :
    (s.oweOnce o).mod = s.mod := by
  unfold State.oweOnce; split <;> rfl

/-! ### setSched -/

@[simp] theorem State.setSched_r (s : State) (c : Sched) :
    (s.setSched c).r = s.r := rfl
@[simp] theorem State.setSched_run (s : State) (c : Sched) :
    (s.setSched c).run = s.run := rfl
@[simp] theorem State.setSched_rank (s : State) (c : Sched) :
    (s.setSched c).rank = s.rank := rfl
@[simp] theorem State.setSched_core (s : State) (c : Sched) :
    (s.setSched c).core = s.core := rfl
@[simp] theorem State.setSched_mem (s : State) (c : Sched) :
    (s.setSched c).mem = s.mem := rfl
@[simp] theorem State.setSched_sram (s : State) (c : Sched) :
    (s.setSched c).sram = s.sram := rfl
@[simp] theorem State.setSched_pending (s : State) (c : Sched) :
    (s.setSched c).pending = s.pending := rfl
@[simp] theorem State.setSched_doing (s : State) (c : Sched) :
    (s.setSched c).doing = s.doing := rfl
@[simp] theorem State.setSched_time (s : State) (c : Sched) :
    (s.setSched c).time = s.time := rfl
@[simp] theorem State.setSched_cycle (s : State) (c : Sched) :
    (s.setSched c).cycle = s.cycle := rfl
@[simp] theorem State.setSched_tick (s : State) (c : Sched) :
    (s.setSched c).tick = s.tick := rfl

/-! ### updTask -/

@[simp] theorem State.updTask_r (s : State) (n : Nat) (f : Task → Task) :
    (s.updTask n f).r = s.r := rfl
@[simp] theorem State.updTask_run (s : State) (n : Nat) (f : Task → Task) :
    (s.updTask n f).run = s.run := rfl
@[simp] theorem State.updTask_rank (s : State) (n : Nat) (f : Task → Task) :
    (s.updTask n f).rank = s.rank := rfl
@[simp] theorem State.updTask_core (s : State) (n : Nat) (f : Task → Task) :
    (s.updTask n f).core = s.core := rfl
@[simp] theorem State.updTask_mem (s : State) (n : Nat) (f : Task → Task) :
    (s.updTask n f).mem = s.mem := rfl
@[simp] theorem State.updTask_sram (s : State) (n : Nat) (f : Task → Task) :
    (s.updTask n f).sram = s.sram := rfl
@[simp] theorem State.updTask_pending (s : State) (n : Nat) (f : Task → Task) :
    (s.updTask n f).pending = s.pending := rfl
@[simp] theorem State.updTask_doing (s : State) (n : Nat) (f : Task → Task) :
    (s.updTask n f).doing = s.doing := rfl
@[simp] theorem State.updTask_time (s : State) (n : Nat) (f : Task → Task) :
    (s.updTask n f).time = s.time := rfl
@[simp] theorem State.updTask_cycle (s : State) (n : Nat) (f : Task → Task) :
    (s.updTask n f).cycle = s.cycle := rfl
@[simp] theorem State.updTask_tick (s : State) (n : Nat) (f : Task → Task) :
    (s.updTask n f).tick = s.tick := rfl

/-! ### updCtx -/

@[simp] theorem State.updCtx_r (s : State) (n : Nat) (f : Ctx → Ctx) :
    (s.updCtx n f).r = s.r := rfl
@[simp] theorem State.updCtx_run (s : State) (n : Nat) (f : Ctx → Ctx) :
    (s.updCtx n f).run = s.run := rfl
@[simp] theorem State.updCtx_rank (s : State) (n : Nat) (f : Ctx → Ctx) :
    (s.updCtx n f).rank = s.rank := rfl
@[simp] theorem State.updCtx_core (s : State) (n : Nat) (f : Ctx → Ctx) :
    (s.updCtx n f).core = s.core := rfl
@[simp] theorem State.updCtx_mem (s : State) (n : Nat) (f : Ctx → Ctx) :
    (s.updCtx n f).mem = s.mem := rfl
@[simp] theorem State.updCtx_sram (s : State) (n : Nat) (f : Ctx → Ctx) :
    (s.updCtx n f).sram = s.sram := rfl
@[simp] theorem State.updCtx_pending (s : State) (n : Nat) (f : Ctx → Ctx) :
    (s.updCtx n f).pending = s.pending := rfl
@[simp] theorem State.updCtx_doing (s : State) (n : Nat) (f : Ctx → Ctx) :
    (s.updCtx n f).doing = s.doing := rfl
@[simp] theorem State.updCtx_time (s : State) (n : Nat) (f : Ctx → Ctx) :
    (s.updCtx n f).time = s.time := rfl
@[simp] theorem State.updCtx_cycle (s : State) (n : Nat) (f : Ctx → Ctx) :
    (s.updCtx n f).cycle = s.cycle := rfl
@[simp] theorem State.updCtx_tick (s : State) (n : Nat) (f : Ctx → Ctx) :
    (s.updCtx n f).tick = s.tick := rfl

/-! ### updCtxRegs -/

@[simp] theorem State.updCtxRegs_r (s : State) (n : Nat) (f : CtxRegs → CtxRegs) :
    (s.updCtxRegs n f).r = s.r := rfl
@[simp] theorem State.updCtxRegs_run (s : State) (n : Nat) (f : CtxRegs → CtxRegs) :
    (s.updCtxRegs n f).run = s.run := rfl
@[simp] theorem State.updCtxRegs_rank (s : State) (n : Nat) (f : CtxRegs → CtxRegs) :
    (s.updCtxRegs n f).rank = s.rank := rfl
@[simp] theorem State.updCtxRegs_core (s : State) (n : Nat) (f : CtxRegs → CtxRegs) :
    (s.updCtxRegs n f).core = s.core := rfl
@[simp] theorem State.updCtxRegs_mem (s : State) (n : Nat) (f : CtxRegs → CtxRegs) :
    (s.updCtxRegs n f).mem = s.mem := rfl
@[simp] theorem State.updCtxRegs_sram (s : State) (n : Nat) (f : CtxRegs → CtxRegs) :
    (s.updCtxRegs n f).sram = s.sram := rfl
@[simp] theorem State.updCtxRegs_pending (s : State) (n : Nat) (f : CtxRegs → CtxRegs) :
    (s.updCtxRegs n f).pending = s.pending := rfl
@[simp] theorem State.updCtxRegs_doing (s : State) (n : Nat) (f : CtxRegs → CtxRegs) :
    (s.updCtxRegs n f).doing = s.doing := rfl
@[simp] theorem State.updCtxRegs_time (s : State) (n : Nat) (f : CtxRegs → CtxRegs) :
    (s.updCtxRegs n f).time = s.time := rfl
@[simp] theorem State.updCtxRegs_cycle (s : State) (n : Nat) (f : CtxRegs → CtxRegs) :
    (s.updCtxRegs n f).cycle = s.cycle := rfl
@[simp] theorem State.updCtxRegs_tick (s : State) (n : Nat) (f : CtxRegs → CtxRegs) :
    (s.updCtxRegs n f).tick = s.tick := rfl

/-! ### updLaunch -/

@[simp] theorem State.updLaunch_r (s : State) (n : Nat) (f : Launch → Launch) :
    (s.updLaunch n f).r = s.r := rfl
@[simp] theorem State.updLaunch_run (s : State) (n : Nat) (f : Launch → Launch) :
    (s.updLaunch n f).run = s.run := rfl
@[simp] theorem State.updLaunch_rank (s : State) (n : Nat) (f : Launch → Launch) :
    (s.updLaunch n f).rank = s.rank := rfl
@[simp] theorem State.updLaunch_core (s : State) (n : Nat) (f : Launch → Launch) :
    (s.updLaunch n f).core = s.core := rfl
@[simp] theorem State.updLaunch_mem (s : State) (n : Nat) (f : Launch → Launch) :
    (s.updLaunch n f).mem = s.mem := rfl
@[simp] theorem State.updLaunch_sram (s : State) (n : Nat) (f : Launch → Launch) :
    (s.updLaunch n f).sram = s.sram := rfl
@[simp] theorem State.updLaunch_pending (s : State) (n : Nat) (f : Launch → Launch) :
    (s.updLaunch n f).pending = s.pending := rfl
@[simp] theorem State.updLaunch_doing (s : State) (n : Nat) (f : Launch → Launch) :
    (s.updLaunch n f).doing = s.doing := rfl
@[simp] theorem State.updLaunch_time (s : State) (n : Nat) (f : Launch → Launch) :
    (s.updLaunch n f).time = s.time := rfl
@[simp] theorem State.updLaunch_cycle (s : State) (n : Nat) (f : Launch → Launch) :
    (s.updLaunch n f).cycle = s.cycle := rfl
@[simp] theorem State.updLaunch_tick (s : State) (n : Nat) (f : Launch → Launch) :
    (s.updLaunch n f).tick = s.tick := rfl

/-! ### bump -/

@[simp] theorem State.bump_r (s : State) :
    (s.bump).r = s.r := rfl
@[simp] theorem State.bump_run (s : State) :
    (s.bump).run = s.run := rfl
@[simp] theorem State.bump_rank (s : State) :
    (s.bump).rank = s.rank := rfl
@[simp] theorem State.bump_core (s : State) :
    (s.bump).core = s.core := rfl
@[simp] theorem State.bump_mem (s : State) :
    (s.bump).mem = s.mem := rfl
@[simp] theorem State.bump_sram (s : State) :
    (s.bump).sram = s.sram := rfl
@[simp] theorem State.bump_pending (s : State) :
    (s.bump).pending = s.pending := rfl
@[simp] theorem State.bump_doing (s : State) :
    (s.bump).doing = s.doing := rfl
@[simp] theorem State.bump_time (s : State) :
    (s.bump).time = s.time := rfl
@[simp] theorem State.bump_cycle (s : State) :
    (s.bump).cycle = s.cycle := rfl
@[simp] theorem State.bump_tick (s : State) :
    (s.bump).tick = s.tick := rfl

/-! ### updJob -/

@[simp] theorem State.updJob_r (s : State) (n : Nat) (f : Job → Job) :
    (s.updJob n f).r = s.r := rfl
@[simp] theorem State.updJob_run (s : State) (n : Nat) (f : Job → Job) :
    (s.updJob n f).run = s.run := rfl
@[simp] theorem State.updJob_rank (s : State) (n : Nat) (f : Job → Job) :
    (s.updJob n f).rank = s.rank := rfl
@[simp] theorem State.updJob_core (s : State) (n : Nat) (f : Job → Job) :
    (s.updJob n f).core = s.core := rfl
@[simp] theorem State.updJob_mem (s : State) (n : Nat) (f : Job → Job) :
    (s.updJob n f).mem = s.mem := rfl
@[simp] theorem State.updJob_sram (s : State) (n : Nat) (f : Job → Job) :
    (s.updJob n f).sram = s.sram := rfl
@[simp] theorem State.updJob_pending (s : State) (n : Nat) (f : Job → Job) :
    (s.updJob n f).pending = s.pending := rfl
@[simp] theorem State.updJob_doing (s : State) (n : Nat) (f : Job → Job) :
    (s.updJob n f).doing = s.doing := rfl
@[simp] theorem State.updJob_time (s : State) (n : Nat) (f : Job → Job) :
    (s.updJob n f).time = s.time := rfl
@[simp] theorem State.updJob_cycle (s : State) (n : Nat) (f : Job → Job) :
    (s.updJob n f).cycle = s.cycle := rfl
@[simp] theorem State.updJob_tick (s : State) (n : Nat) (f : Job → Job) :
    (s.updJob n f).tick = s.tick := rfl

/-! ### updEv -/

@[simp] theorem State.updEv_r (s : State) (e : EvKey) (f : EvState → EvState) :
    (s.updEv e f).r = s.r := rfl
@[simp] theorem State.updEv_run (s : State) (e : EvKey) (f : EvState → EvState) :
    (s.updEv e f).run = s.run := rfl
@[simp] theorem State.updEv_rank (s : State) (e : EvKey) (f : EvState → EvState) :
    (s.updEv e f).rank = s.rank := rfl
@[simp] theorem State.updEv_core (s : State) (e : EvKey) (f : EvState → EvState) :
    (s.updEv e f).core = s.core := rfl
@[simp] theorem State.updEv_mem (s : State) (e : EvKey) (f : EvState → EvState) :
    (s.updEv e f).mem = s.mem := rfl
@[simp] theorem State.updEv_sram (s : State) (e : EvKey) (f : EvState → EvState) :
    (s.updEv e f).sram = s.sram := rfl
@[simp] theorem State.updEv_pending (s : State) (e : EvKey) (f : EvState → EvState) :
    (s.updEv e f).pending = s.pending := rfl
@[simp] theorem State.updEv_doing (s : State) (e : EvKey) (f : EvState → EvState) :
    (s.updEv e f).doing = s.doing := rfl
@[simp] theorem State.updEv_time (s : State) (e : EvKey) (f : EvState → EvState) :
    (s.updEv e f).time = s.time := rfl
@[simp] theorem State.updEv_cycle (s : State) (e : EvKey) (f : EvState → EvState) :
    (s.updEv e f).cycle = s.cycle := rfl
@[simp] theorem State.updEv_tick (s : State) (e : EvKey) (f : EvState → EvState) :
    (s.updEv e f).tick = s.tick := rfl

/-! ### updRec -/

@[simp] theorem State.updRec_r (s : State) (n : Nat) (f : Rec → Rec) :
    (s.updRec n f).r = s.r := rfl
@[simp] theorem State.updRec_run (s : State) (n : Nat) (f : Rec → Rec) :
    (s.updRec n f).run = s.run := rfl
@[simp] theorem State.updRec_rank (s : State) (n : Nat) (f : Rec → Rec) :
    (s.updRec n f).rank = s.rank := rfl
@[simp] theorem State.updRec_core (s : State) (n : Nat) (f : Rec → Rec) :
    (s.updRec n f).core = s.core := rfl
@[simp] theorem State.updRec_mem (s : State) (n : Nat) (f : Rec → Rec) :
    (s.updRec n f).mem = s.mem := rfl
@[simp] theorem State.updRec_sram (s : State) (n : Nat) (f : Rec → Rec) :
    (s.updRec n f).sram = s.sram := rfl
@[simp] theorem State.updRec_pending (s : State) (n : Nat) (f : Rec → Rec) :
    (s.updRec n f).pending = s.pending := rfl
@[simp] theorem State.updRec_doing (s : State) (n : Nat) (f : Rec → Rec) :
    (s.updRec n f).doing = s.doing := rfl
@[simp] theorem State.updRec_time (s : State) (n : Nat) (f : Rec → Rec) :
    (s.updRec n f).time = s.time := rfl
@[simp] theorem State.updRec_cycle (s : State) (n : Nat) (f : Rec → Rec) :
    (s.updRec n f).cycle = s.cycle := rfl
@[simp] theorem State.updRec_tick (s : State) (n : Nat) (f : Rec → Rec) :
    (s.updRec n f).tick = s.tick := rfl

/-! ### dropRec -/

@[simp] theorem State.dropRec_r (s : State) (n : Nat) :
    (s.dropRec n).r = s.r := rfl
@[simp] theorem State.dropRec_run (s : State) (n : Nat) :
    (s.dropRec n).run = s.run := rfl
@[simp] theorem State.dropRec_rank (s : State) (n : Nat) :
    (s.dropRec n).rank = s.rank := rfl
@[simp] theorem State.dropRec_core (s : State) (n : Nat) :
    (s.dropRec n).core = s.core := rfl
@[simp] theorem State.dropRec_mem (s : State) (n : Nat) :
    (s.dropRec n).mem = s.mem := rfl
@[simp] theorem State.dropRec_sram (s : State) (n : Nat) :
    (s.dropRec n).sram = s.sram := rfl
@[simp] theorem State.dropRec_pending (s : State) (n : Nat) :
    (s.dropRec n).pending = s.pending := rfl
@[simp] theorem State.dropRec_doing (s : State) (n : Nat) :
    (s.dropRec n).doing = s.doing := rfl
@[simp] theorem State.dropRec_time (s : State) (n : Nat) :
    (s.dropRec n).time = s.time := rfl
@[simp] theorem State.dropRec_cycle (s : State) (n : Nat) :
    (s.dropRec n).cycle = s.cycle := rfl
@[simp] theorem State.dropRec_tick (s : State) (n : Nat) :
    (s.dropRec n).tick = s.tick := rfl

/-! ### dropOffers -/

@[simp] theorem State.dropOffers_r (s : State) (n : Nat) :
    (s.dropOffers n).r = s.r := rfl
@[simp] theorem State.dropOffers_run (s : State) (n : Nat) :
    (s.dropOffers n).run = s.run := rfl
@[simp] theorem State.dropOffers_rank (s : State) (n : Nat) :
    (s.dropOffers n).rank = s.rank := rfl
@[simp] theorem State.dropOffers_core (s : State) (n : Nat) :
    (s.dropOffers n).core = s.core := rfl
@[simp] theorem State.dropOffers_mem (s : State) (n : Nat) :
    (s.dropOffers n).mem = s.mem := rfl
@[simp] theorem State.dropOffers_sram (s : State) (n : Nat) :
    (s.dropOffers n).sram = s.sram := rfl
@[simp] theorem State.dropOffers_pending (s : State) (n : Nat) :
    (s.dropOffers n).pending = s.pending := rfl
@[simp] theorem State.dropOffers_doing (s : State) (n : Nat) :
    (s.dropOffers n).doing = s.doing := rfl
@[simp] theorem State.dropOffers_time (s : State) (n : Nat) :
    (s.dropOffers n).time = s.time := rfl
@[simp] theorem State.dropOffers_cycle (s : State) (n : Nat) :
    (s.dropOffers n).cycle = s.cycle := rfl
@[simp] theorem State.dropOffers_tick (s : State) (n : Nat) :
    (s.dropOffers n).tick = s.tick := rfl

/-! ### report -/

@[simp] theorem State.report_r (s : State) (x : Report) :
    (s.report x).r = s.r := rfl
@[simp] theorem State.report_run (s : State) (x : Report) :
    (s.report x).run = s.run := rfl
@[simp] theorem State.report_rank (s : State) (x : Report) :
    (s.report x).rank = s.rank := rfl
@[simp] theorem State.report_core (s : State) (x : Report) :
    (s.report x).core = s.core := rfl
@[simp] theorem State.report_mem (s : State) (x : Report) :
    (s.report x).mem = s.mem := rfl
@[simp] theorem State.report_sram (s : State) (x : Report) :
    (s.report x).sram = s.sram := rfl
@[simp] theorem State.report_pending (s : State) (x : Report) :
    (s.report x).pending = s.pending := rfl
@[simp] theorem State.report_doing (s : State) (x : Report) :
    (s.report x).doing = s.doing := rfl
@[simp] theorem State.report_time (s : State) (x : Report) :
    (s.report x).time = s.time := rfl
@[simp] theorem State.report_cycle (s : State) (x : Report) :
    (s.report x).cycle = s.cycle := rfl
@[simp] theorem State.report_tick (s : State) (x : Report) :
    (s.report x).tick = s.tick := rfl

/-! ### reportTask -/

@[simp] theorem State.reportTask_r (s : State) (t : Task) (kind : Nat) (code : BitVec 16) (pc addr msg seq : Word) :
    (s.reportTask t kind code pc addr msg seq).r = s.r := rfl
@[simp] theorem State.reportTask_run (s : State) (t : Task) (kind : Nat) (code : BitVec 16) (pc addr msg seq : Word) :
    (s.reportTask t kind code pc addr msg seq).run = s.run := rfl
@[simp] theorem State.reportTask_rank (s : State) (t : Task) (kind : Nat) (code : BitVec 16) (pc addr msg seq : Word) :
    (s.reportTask t kind code pc addr msg seq).rank = s.rank := rfl
@[simp] theorem State.reportTask_core (s : State) (t : Task) (kind : Nat) (code : BitVec 16) (pc addr msg seq : Word) :
    (s.reportTask t kind code pc addr msg seq).core = s.core := rfl
@[simp] theorem State.reportTask_mem (s : State) (t : Task) (kind : Nat) (code : BitVec 16) (pc addr msg seq : Word) :
    (s.reportTask t kind code pc addr msg seq).mem = s.mem := rfl
@[simp] theorem State.reportTask_sram (s : State) (t : Task) (kind : Nat) (code : BitVec 16) (pc addr msg seq : Word) :
    (s.reportTask t kind code pc addr msg seq).sram = s.sram := rfl
@[simp] theorem State.reportTask_pending (s : State) (t : Task) (kind : Nat) (code : BitVec 16) (pc addr msg seq : Word) :
    (s.reportTask t kind code pc addr msg seq).pending = s.pending := rfl
@[simp] theorem State.reportTask_doing (s : State) (t : Task) (kind : Nat) (code : BitVec 16) (pc addr msg seq : Word) :
    (s.reportTask t kind code pc addr msg seq).doing = s.doing := rfl
@[simp] theorem State.reportTask_time (s : State) (t : Task) (kind : Nat) (code : BitVec 16) (pc addr msg seq : Word) :
    (s.reportTask t kind code pc addr msg seq).time = s.time := rfl
@[simp] theorem State.reportTask_cycle (s : State) (t : Task) (kind : Nat) (code : BitVec 16) (pc addr msg seq : Word) :
    (s.reportTask t kind code pc addr msg seq).cycle = s.cycle := rfl
@[simp] theorem State.reportTask_tick (s : State) (t : Task) (kind : Nat) (code : BitVec 16) (pc addr msg seq : Word) :
    (s.reportTask t kind code pc addr msg seq).tick = s.tick := rfl

/-! ### enterTrap -/

@[simp] theorem State.enterTrap_rank (s : State) (code : BitVec 16) (pc addr : Word) :
    (s.enterTrap code pc addr).rank = s.rank := rfl
@[simp] theorem State.enterTrap_core (s : State) (code : BitVec 16) (pc addr : Word) :
    (s.enterTrap code pc addr).core = s.core := rfl
@[simp] theorem State.enterTrap_mem (s : State) (code : BitVec 16) (pc addr : Word) :
    (s.enterTrap code pc addr).mem = s.mem := rfl
@[simp] theorem State.enterTrap_sram (s : State) (code : BitVec 16) (pc addr : Word) :
    (s.enterTrap code pc addr).sram = s.sram := rfl
@[simp] theorem State.enterTrap_pending (s : State) (code : BitVec 16) (pc addr : Word) :
    (s.enterTrap code pc addr).pending = s.pending := rfl
@[simp] theorem State.enterTrap_doing (s : State) (code : BitVec 16) (pc addr : Word) :
    (s.enterTrap code pc addr).doing = s.doing := rfl
@[simp] theorem State.enterTrap_time (s : State) (code : BitVec 16) (pc addr : Word) :
    (s.enterTrap code pc addr).time = s.time := rfl
@[simp] theorem State.enterTrap_cycle (s : State) (code : BitVec 16) (pc addr : Word) :
    (s.enterTrap code pc addr).cycle = s.cycle := rfl
@[simp] theorem State.enterTrap_tick (s : State) (code : BitVec 16) (pc addr : Word) :
    (s.enterTrap code pc addr).tick = s.tick := rfl
@[simp] theorem State.enterTrap_mod (s : State) (code : BitVec 16) (pc addr : Word) :
    (s.enterTrap code pc addr).mod = s.mod := rfl
@[simp] theorem State.enterTrap_r_g (s : State) (code : BitVec 16) (pc addr : Word) :
    (s.enterTrap code pc addr).r.g = s.r.g := rfl
@[simp] theorem State.enterTrap_r_p (s : State) (code : BitVec 16) (pc addr : Word) :
    (s.enterTrap code pc addr).r.p = s.r.p := rfl
@[simp] theorem State.enterTrap_r_v (s : State) (code : BitVec 16) (pc addr : Word) :
    (s.enterTrap code pc addr).r.v = s.r.v := rfl
@[simp] theorem State.enterTrap_r_m (s : State) (code : BitVec 16) (pc addr : Word) :
    (s.enterTrap code pc addr).r.m = s.r.m := rfl
@[simp] theorem State.enterTrap_r_t (s : State) (code : BitVec 16) (pc addr : Word) :
    (s.enterTrap code pc addr).r.t = s.r.t := rfl
@[simp] theorem State.enterTrap_r_c (s : State) (code : BitVec 16) (pc addr : Word) :
    (s.enterTrap code pc addr).r.c = s.r.c := rfl
@[simp] theorem State.enterTrap_r_q (s : State) (code : BitVec 16) (pc addr : Word) :
    (s.enterTrap code pc addr).r.q = s.r.q := rfl
@[simp] theorem State.enterTrap_r_k (s : State) (code : BitVec 16) (pc addr : Word) :
    (s.enterTrap code pc addr).r.k = s.r.k := rfl
@[simp] theorem State.enterTrap_r_lc (s : State) (code : BitVec 16) (pc addr : Word) :
    (s.enterTrap code pc addr).r.lc = s.r.lc := rfl
@[simp] theorem State.enterTrap_r_mx (s : State) (code : BitVec 16) (pc addr : Word) :
    (s.enterTrap code pc addr).r.mx = s.r.mx := rfl
@[simp] theorem State.enterTrap_r_mxflag (s : State) (code : BitVec 16) (pc addr : Word) :
    (s.enterTrap code pc addr).r.mxflag = s.r.mxflag := rfl
@[simp] theorem State.enterTrap_r_tcfg (s : State) (code : BitVec 16) (pc addr : Word) :
    (s.enterTrap code pc addr).r.tcfg = s.r.tcfg := rfl
@[simp] theorem State.enterTrap_r_fe (s : State) (code : BitVec 16) (pc addr : Word) :
    (s.enterTrap code pc addr).r.fe = s.r.fe := rfl
@[simp] theorem State.enterTrap_r_fpflags (s : State) (code : BitVec 16) (pc addr : Word) :
    (s.enterTrap code pc addr).r.fpflags = s.r.fpflags := rfl
@[simp] theorem State.enterTrap_r_coinseed (s : State) (code : BitVec 16) (pc addr : Word) :
    (s.enterTrap code pc addr).r.coinseed = s.r.coinseed := rfl
@[simp] theorem State.enterTrap_r_live (s : State) (code : BitVec 16) (pc addr : Word) :
    (s.enterTrap code pc addr).r.live = s.r.live := rfl
@[simp] theorem State.enterTrap_r_evstat (s : State) (code : BitVec 16) (pc addr : Word) :
    (s.enterTrap code pc addr).r.evstat = s.r.evstat := rfl
@[simp] theorem State.enterTrap_r_fstat (s : State) (code : BitVec 16) (pc addr : Word) :
    (s.enterTrap code pc addr).r.fstat = s.r.fstat := rfl
@[simp] theorem State.enterTrap_r_segseq (s : State) (code : BitVec 16) (pc addr : Word) :
    (s.enterTrap code pc addr).r.segseq = s.r.segseq := rfl

/-! ### eret -/

@[simp] theorem State.eret_rank (s : State) :
    (s.eret).rank = s.rank := rfl
@[simp] theorem State.eret_core (s : State) :
    (s.eret).core = s.core := rfl
@[simp] theorem State.eret_mem (s : State) :
    (s.eret).mem = s.mem := rfl
@[simp] theorem State.eret_sram (s : State) :
    (s.eret).sram = s.sram := rfl
@[simp] theorem State.eret_pending (s : State) :
    (s.eret).pending = s.pending := rfl
@[simp] theorem State.eret_doing (s : State) :
    (s.eret).doing = s.doing := rfl
@[simp] theorem State.eret_time (s : State) :
    (s.eret).time = s.time := rfl
@[simp] theorem State.eret_cycle (s : State) :
    (s.eret).cycle = s.cycle := rfl
@[simp] theorem State.eret_tick (s : State) :
    (s.eret).tick = s.tick := rfl
@[simp] theorem State.eret_mod (s : State) :
    (s.eret).mod = s.mod := rfl
@[simp] theorem State.eret_r_g (s : State) :
    (s.eret).r.g = s.r.g := rfl
@[simp] theorem State.eret_r_p (s : State) :
    (s.eret).r.p = s.r.p := rfl
@[simp] theorem State.eret_r_v (s : State) :
    (s.eret).r.v = s.r.v := rfl
@[simp] theorem State.eret_r_m (s : State) :
    (s.eret).r.m = s.r.m := rfl
@[simp] theorem State.eret_r_t (s : State) :
    (s.eret).r.t = s.r.t := rfl
@[simp] theorem State.eret_r_c (s : State) :
    (s.eret).r.c = s.r.c := rfl
@[simp] theorem State.eret_r_q (s : State) :
    (s.eret).r.q = s.r.q := rfl
@[simp] theorem State.eret_r_k (s : State) :
    (s.eret).r.k = s.r.k := rfl
@[simp] theorem State.eret_r_lc (s : State) :
    (s.eret).r.lc = s.r.lc := rfl
@[simp] theorem State.eret_r_mx (s : State) :
    (s.eret).r.mx = s.r.mx := rfl
@[simp] theorem State.eret_r_mxflag (s : State) :
    (s.eret).r.mxflag = s.r.mxflag := rfl
@[simp] theorem State.eret_r_tcfg (s : State) :
    (s.eret).r.tcfg = s.r.tcfg := rfl
@[simp] theorem State.eret_r_fe (s : State) :
    (s.eret).r.fe = s.r.fe := rfl
@[simp] theorem State.eret_r_fpflags (s : State) :
    (s.eret).r.fpflags = s.r.fpflags := rfl
@[simp] theorem State.eret_r_coinseed (s : State) :
    (s.eret).r.coinseed = s.r.coinseed := rfl
@[simp] theorem State.eret_r_live (s : State) :
    (s.eret).r.live = s.r.live := rfl
@[simp] theorem State.eret_r_evstat (s : State) :
    (s.eret).r.evstat = s.r.evstat := rfl
@[simp] theorem State.eret_r_fstat (s : State) :
    (s.eret).r.fstat = s.r.fstat := rfl
@[simp] theorem State.eret_r_segseq (s : State) :
    (s.eret).r.segseq = s.r.segseq := rfl

/-! ### advance -/

@[simp] theorem State.advance_r (s : State) :
    (s.advance).r = s.r := rfl
@[simp] theorem State.advance_run (s : State) :
    (s.advance).run = s.run := rfl
@[simp] theorem State.advance_rank (s : State) :
    (s.advance).rank = s.rank := rfl
@[simp] theorem State.advance_core (s : State) :
    (s.advance).core = s.core := rfl
@[simp] theorem State.advance_mem (s : State) :
    (s.advance).mem = s.mem := rfl
@[simp] theorem State.advance_sram (s : State) :
    (s.advance).sram = s.sram := rfl
@[simp] theorem State.advance_pending (s : State) :
    (s.advance).pending = s.pending := rfl
@[simp] theorem State.advance_doing (s : State) :
    (s.advance).doing = s.doing := rfl
@[simp] theorem State.advance_mod (s : State) :
    (s.advance).mod = s.mod := rfl

/-! ### raiseVector -/

@[simp] theorem State.raiseVector_r (s : State) (n : Nat) :
    (s.raiseVector n).r = s.r := rfl
@[simp] theorem State.raiseVector_run (s : State) (n : Nat) :
    (s.raiseVector n).run = s.run := rfl
@[simp] theorem State.raiseVector_rank (s : State) (n : Nat) :
    (s.raiseVector n).rank = s.rank := rfl
@[simp] theorem State.raiseVector_core (s : State) (n : Nat) :
    (s.raiseVector n).core = s.core := rfl
@[simp] theorem State.raiseVector_mem (s : State) (n : Nat) :
    (s.raiseVector n).mem = s.mem := rfl
@[simp] theorem State.raiseVector_sram (s : State) (n : Nat) :
    (s.raiseVector n).sram = s.sram := rfl
@[simp] theorem State.raiseVector_pending (s : State) (n : Nat) :
    (s.raiseVector n).pending = s.pending := rfl
@[simp] theorem State.raiseVector_doing (s : State) (n : Nat) :
    (s.raiseVector n).doing = s.doing := rfl
@[simp] theorem State.raiseVector_time (s : State) (n : Nat) :
    (s.raiseVector n).time = s.time := rfl
@[simp] theorem State.raiseVector_cycle (s : State) (n : Nat) :
    (s.raiseVector n).cycle = s.cycle := rfl
@[simp] theorem State.raiseVector_tick (s : State) (n : Nat) :
    (s.raiseVector n).tick = s.tick := rfl

/-! ### sendRemote -/

@[simp] theorem State.sendRemote_r (s : State) (q : RemoteReq) :
    (s.sendRemote q).r = s.r := rfl
@[simp] theorem State.sendRemote_rank (s : State) (q : RemoteReq) :
    (s.sendRemote q).rank = s.rank := rfl
@[simp] theorem State.sendRemote_core (s : State) (q : RemoteReq) :
    (s.sendRemote q).core = s.core := rfl
@[simp] theorem State.sendRemote_mem (s : State) (q : RemoteReq) :
    (s.sendRemote q).mem = s.mem := rfl
@[simp] theorem State.sendRemote_sram (s : State) (q : RemoteReq) :
    (s.sendRemote q).sram = s.sram := rfl
@[simp] theorem State.sendRemote_doing (s : State) (q : RemoteReq) :
    (s.sendRemote q).doing = s.doing := rfl
@[simp] theorem State.sendRemote_time (s : State) (q : RemoteReq) :
    (s.sendRemote q).time = s.time := rfl
@[simp] theorem State.sendRemote_cycle (s : State) (q : RemoteReq) :
    (s.sendRemote q).cycle = s.cycle := rfl
@[simp] theorem State.sendRemote_tick (s : State) (q : RemoteReq) :
    (s.sendRemote q).tick = s.tick := rfl

/-! ### take -/

@[simp] theorem State.take_r (s : State) (q : RemoteReq) :
    (s.take q).r = s.r := rfl
@[simp] theorem State.take_run (s : State) (q : RemoteReq) :
    (s.take q).run = s.run := rfl
@[simp] theorem State.take_rank (s : State) (q : RemoteReq) :
    (s.take q).rank = s.rank := rfl
@[simp] theorem State.take_core (s : State) (q : RemoteReq) :
    (s.take q).core = s.core := rfl
@[simp] theorem State.take_mem (s : State) (q : RemoteReq) :
    (s.take q).mem = s.mem := rfl
@[simp] theorem State.take_sram (s : State) (q : RemoteReq) :
    (s.take q).sram = s.sram := rfl
@[simp] theorem State.take_pending (s : State) (q : RemoteReq) :
    (s.take q).pending = s.pending := rfl
@[simp] theorem State.take_doing (s : State) (q : RemoteReq) :
    (s.take q).doing = s.doing := rfl
@[simp] theorem State.take_time (s : State) (q : RemoteReq) :
    (s.take q).time = s.time := rfl
@[simp] theorem State.take_cycle (s : State) (q : RemoteReq) :
    (s.take q).cycle = s.cycle := rfl
@[simp] theorem State.take_tick (s : State) (q : RemoteReq) :
    (s.take q).tick = s.tick := rfl

/-! ### setPacket -/

@[simp] theorem State.setPacket_r (s : State) (n : Nat) (f : Packet → Packet) :
    (s.setPacket n f).r = s.r := rfl
@[simp] theorem State.setPacket_run (s : State) (n : Nat) (f : Packet → Packet) :
    (s.setPacket n f).run = s.run := rfl
@[simp] theorem State.setPacket_rank (s : State) (n : Nat) (f : Packet → Packet) :
    (s.setPacket n f).rank = s.rank := rfl
@[simp] theorem State.setPacket_core (s : State) (n : Nat) (f : Packet → Packet) :
    (s.setPacket n f).core = s.core := rfl
@[simp] theorem State.setPacket_mem (s : State) (n : Nat) (f : Packet → Packet) :
    (s.setPacket n f).mem = s.mem := rfl
@[simp] theorem State.setPacket_sram (s : State) (n : Nat) (f : Packet → Packet) :
    (s.setPacket n f).sram = s.sram := rfl
@[simp] theorem State.setPacket_pending (s : State) (n : Nat) (f : Packet → Packet) :
    (s.setPacket n f).pending = s.pending := rfl
@[simp] theorem State.setPacket_doing (s : State) (n : Nat) (f : Packet → Packet) :
    (s.setPacket n f).doing = s.doing := rfl
@[simp] theorem State.setPacket_time (s : State) (n : Nat) (f : Packet → Packet) :
    (s.setPacket n f).time = s.time := rfl
@[simp] theorem State.setPacket_cycle (s : State) (n : Nat) (f : Packet → Packet) :
    (s.setPacket n f).cycle = s.cycle := rfl
@[simp] theorem State.setPacket_tick (s : State) (n : Nat) (f : Packet → Packet) :
    (s.setPacket n f).tick = s.tick := rfl

/-! ### dropFlight -/

@[simp] theorem State.dropFlight_r (s : State) (n : Nat) :
    (s.dropFlight n).r = s.r := rfl
@[simp] theorem State.dropFlight_rank (s : State) (n : Nat) :
    (s.dropFlight n).rank = s.rank := rfl
@[simp] theorem State.dropFlight_core (s : State) (n : Nat) :
    (s.dropFlight n).core = s.core := rfl
@[simp] theorem State.dropFlight_mem (s : State) (n : Nat) :
    (s.dropFlight n).mem = s.mem := rfl
@[simp] theorem State.dropFlight_sram (s : State) (n : Nat) :
    (s.dropFlight n).sram = s.sram := rfl
@[simp] theorem State.dropFlight_pending (s : State) (n : Nat) :
    (s.dropFlight n).pending = s.pending := rfl
@[simp] theorem State.dropFlight_doing (s : State) (n : Nat) :
    (s.dropFlight n).doing = s.doing := rfl
@[simp] theorem State.dropFlight_time (s : State) (n : Nat) :
    (s.dropFlight n).time = s.time := rfl
@[simp] theorem State.dropFlight_cycle (s : State) (n : Nat) :
    (s.dropFlight n).cycle = s.cycle := rfl
@[simp] theorem State.dropFlight_tick (s : State) (n : Nat) :
    (s.dropFlight n).tick = s.tick := rfl
@[simp] theorem State.dropFlight_mod (s : State) (n : Nat) :
    (s.dropFlight n).mod = s.mod := rfl

/-! ### doneFlight -/

@[simp] theorem State.doneFlight_r (s : State) (n : Nat) (bs : List Byte) :
    (s.doneFlight n bs).r = s.r := rfl
@[simp] theorem State.doneFlight_rank (s : State) (n : Nat) (bs : List Byte) :
    (s.doneFlight n bs).rank = s.rank := rfl
@[simp] theorem State.doneFlight_core (s : State) (n : Nat) (bs : List Byte) :
    (s.doneFlight n bs).core = s.core := rfl
@[simp] theorem State.doneFlight_mem (s : State) (n : Nat) (bs : List Byte) :
    (s.doneFlight n bs).mem = s.mem := rfl
@[simp] theorem State.doneFlight_sram (s : State) (n : Nat) (bs : List Byte) :
    (s.doneFlight n bs).sram = s.sram := rfl
@[simp] theorem State.doneFlight_pending (s : State) (n : Nat) (bs : List Byte) :
    (s.doneFlight n bs).pending = s.pending := rfl
@[simp] theorem State.doneFlight_doing (s : State) (n : Nat) (bs : List Byte) :
    (s.doneFlight n bs).doing = s.doing := rfl
@[simp] theorem State.doneFlight_time (s : State) (n : Nat) (bs : List Byte) :
    (s.doneFlight n bs).time = s.time := rfl
@[simp] theorem State.doneFlight_cycle (s : State) (n : Nat) (bs : List Byte) :
    (s.doneFlight n bs).cycle = s.cycle := rfl
@[simp] theorem State.doneFlight_tick (s : State) (n : Nat) (bs : List Byte) :
    (s.doneFlight n bs).tick = s.tick := rfl
@[simp] theorem State.doneFlight_mod (s : State) (n : Nat) (bs : List Byte) :
    (s.doneFlight n bs).mod = s.mod := rfl

/-! ### freeText -/

@[simp] theorem State.freeText_r (s : State) (n : Nat) :
    (s.freeText n).r = s.r := rfl
@[simp] theorem State.freeText_run (s : State) (n : Nat) :
    (s.freeText n).run = s.run := rfl
@[simp] theorem State.freeText_rank (s : State) (n : Nat) :
    (s.freeText n).rank = s.rank := rfl
@[simp] theorem State.freeText_core (s : State) (n : Nat) :
    (s.freeText n).core = s.core := rfl
@[simp] theorem State.freeText_mem (s : State) (n : Nat) :
    (s.freeText n).mem = s.mem := rfl
@[simp] theorem State.freeText_sram (s : State) (n : Nat) :
    (s.freeText n).sram = s.sram := rfl
@[simp] theorem State.freeText_pending (s : State) (n : Nat) :
    (s.freeText n).pending = s.pending := rfl
@[simp] theorem State.freeText_doing (s : State) (n : Nat) :
    (s.freeText n).doing = s.doing := rfl
@[simp] theorem State.freeText_time (s : State) (n : Nat) :
    (s.freeText n).time = s.time := rfl
@[simp] theorem State.freeText_cycle (s : State) (n : Nat) :
    (s.freeText n).cycle = s.cycle := rfl
@[simp] theorem State.freeText_tick (s : State) (n : Nat) :
    (s.freeText n).tick = s.tick := rfl

/-! ### freeReply -/

@[simp] theorem State.freeReply_r (s : State) (n : Nat) :
    (s.freeReply n).r = s.r := rfl
@[simp] theorem State.freeReply_run (s : State) (n : Nat) :
    (s.freeReply n).run = s.run := rfl
@[simp] theorem State.freeReply_rank (s : State) (n : Nat) :
    (s.freeReply n).rank = s.rank := rfl
@[simp] theorem State.freeReply_core (s : State) (n : Nat) :
    (s.freeReply n).core = s.core := rfl
@[simp] theorem State.freeReply_mem (s : State) (n : Nat) :
    (s.freeReply n).mem = s.mem := rfl
@[simp] theorem State.freeReply_sram (s : State) (n : Nat) :
    (s.freeReply n).sram = s.sram := rfl
@[simp] theorem State.freeReply_pending (s : State) (n : Nat) :
    (s.freeReply n).pending = s.pending := rfl
@[simp] theorem State.freeReply_doing (s : State) (n : Nat) :
    (s.freeReply n).doing = s.doing := rfl
@[simp] theorem State.freeReply_time (s : State) (n : Nat) :
    (s.freeReply n).time = s.time := rfl
@[simp] theorem State.freeReply_cycle (s : State) (n : Nat) :
    (s.freeReply n).cycle = s.cycle := rfl
@[simp] theorem State.freeReply_tick (s : State) (n : Nat) :
    (s.freeReply n).tick = s.tick := rfl

/-! ### setText -/

@[simp] theorem State.setText_r (s : State) (x : TextReq) :
    (s.setText x).r = s.r := rfl
@[simp] theorem State.setText_run (s : State) (x : TextReq) :
    (s.setText x).run = s.run := rfl
@[simp] theorem State.setText_rank (s : State) (x : TextReq) :
    (s.setText x).rank = s.rank := rfl
@[simp] theorem State.setText_core (s : State) (x : TextReq) :
    (s.setText x).core = s.core := rfl
@[simp] theorem State.setText_mem (s : State) (x : TextReq) :
    (s.setText x).mem = s.mem := rfl
@[simp] theorem State.setText_sram (s : State) (x : TextReq) :
    (s.setText x).sram = s.sram := rfl
@[simp] theorem State.setText_pending (s : State) (x : TextReq) :
    (s.setText x).pending = s.pending := rfl
@[simp] theorem State.setText_doing (s : State) (x : TextReq) :
    (s.setText x).doing = s.doing := rfl
@[simp] theorem State.setText_time (s : State) (x : TextReq) :
    (s.setText x).time = s.time := rfl
@[simp] theorem State.setText_cycle (s : State) (x : TextReq) :
    (s.setText x).cycle = s.cycle := rfl
@[simp] theorem State.setText_tick (s : State) (x : TextReq) :
    (s.setText x).tick = s.tick := rfl

/-! ### setReply -/

@[simp] theorem State.setReply_r (s : State) (x : Reply) :
    (s.setReply x).r = s.r := rfl
@[simp] theorem State.setReply_run (s : State) (x : Reply) :
    (s.setReply x).run = s.run := rfl
@[simp] theorem State.setReply_rank (s : State) (x : Reply) :
    (s.setReply x).rank = s.rank := rfl
@[simp] theorem State.setReply_core (s : State) (x : Reply) :
    (s.setReply x).core = s.core := rfl
@[simp] theorem State.setReply_mem (s : State) (x : Reply) :
    (s.setReply x).mem = s.mem := rfl
@[simp] theorem State.setReply_sram (s : State) (x : Reply) :
    (s.setReply x).sram = s.sram := rfl
@[simp] theorem State.setReply_pending (s : State) (x : Reply) :
    (s.setReply x).pending = s.pending := rfl
@[simp] theorem State.setReply_doing (s : State) (x : Reply) :
    (s.setReply x).doing = s.doing := rfl
@[simp] theorem State.setReply_time (s : State) (x : Reply) :
    (s.setReply x).time = s.time := rfl
@[simp] theorem State.setReply_cycle (s : State) (x : Reply) :
    (s.setReply x).cycle = s.cycle := rfl
@[simp] theorem State.setReply_tick (s : State) (x : Reply) :
    (s.setReply x).tick = s.tick := rfl

/-! ### updMail -/

@[simp] theorem State.updMail_r (s : State) (f : Mailbox → Mailbox) :
    (s.updMail f).r = s.r := rfl
@[simp] theorem State.updMail_run (s : State) (f : Mailbox → Mailbox) :
    (s.updMail f).run = s.run := rfl
@[simp] theorem State.updMail_rank (s : State) (f : Mailbox → Mailbox) :
    (s.updMail f).rank = s.rank := rfl
@[simp] theorem State.updMail_core (s : State) (f : Mailbox → Mailbox) :
    (s.updMail f).core = s.core := rfl
@[simp] theorem State.updMail_mem (s : State) (f : Mailbox → Mailbox) :
    (s.updMail f).mem = s.mem := rfl
@[simp] theorem State.updMail_sram (s : State) (f : Mailbox → Mailbox) :
    (s.updMail f).sram = s.sram := rfl
@[simp] theorem State.updMail_pending (s : State) (f : Mailbox → Mailbox) :
    (s.updMail f).pending = s.pending := rfl
@[simp] theorem State.updMail_doing (s : State) (f : Mailbox → Mailbox) :
    (s.updMail f).doing = s.doing := rfl
@[simp] theorem State.updMail_time (s : State) (f : Mailbox → Mailbox) :
    (s.updMail f).time = s.time := rfl
@[simp] theorem State.updMail_cycle (s : State) (f : Mailbox → Mailbox) :
    (s.updMail f).cycle = s.cycle := rfl
@[simp] theorem State.updMail_tick (s : State) (f : Mailbox → Mailbox) :
    (s.updMail f).tick = s.tick := rfl

/-! ### What the updates write -/

/-- A retire marks the segment as begun (R186). -/
@[simp] theorem State.retireTo_run (s : State) (lc : Vector Lc 2) (pc : Word) :
    (s.retireTo lc pc).run = { s.run with retired := true } := rfl
@[simp] theorem State.retire_run (s : State) (n : Nat) : (s.retire n).run = { s.run with retired := true } :=
  State.retireTo_run _ _ _
@[simp] theorem State.retireTo_pc (s : State) (lc : Vector Lc 2) (pc : Word) : (s.retireTo lc pc).r.pc = pc := rfl
@[simp] theorem State.retireTo_lc (s : State) (lc : Vector Lc 2) (pc : Word) : (s.retireTo lc pc).r.lc = lc := rfl
/-- A retire leaves the counters and the PC to the end test (R122, R123). -/
@[simp] theorem State.retire_pc (s : State) (n : Nat) :
    (s.retire n).r.pc = (endTest s.r.lc s.r.pc (s.r.pc + BitVec.ofNat 64 n)).2 := State.retireTo_pc _ _ _
@[simp] theorem State.retire_lc (s : State) (n : Nat) :
    (s.retire n).r.lc = (endTest s.r.lc s.r.pc (s.r.pc + BitVec.ofNat 64 n)).1 := State.retireTo_lc _ _ _
@[simp] theorem State.jump_run (s : State) (a : Word) : (s.jump a).run = { s.run with retired := true } := rfl
@[simp] theorem State.jump_pc (s : State) (a : Word) : (s.jump a).r.pc = a := rfl
@[simp] theorem State.eret_pc (s : State) : s.eret.r.pc = s.run.sup.trappc := rfl
@[simp] theorem State.enterTrap_pc (s : State) (code : BitVec 16) (pc addr : Word) :
    (s.enterTrap code pc addr).r.pc = s.run.sup.tvec := rfl
@[simp] theorem State.owe_pending (s : State) (o : Owed) : (s.owe o).pending = s.pending ++ [o] := rfl
/-- A report enters the queue while it has room (R326). -/
@[simp] theorem State.report_reports (s : State) (x : Report) (h : s.mod.reports.length < reportCap) :
    (s.report x).mod.reports = s.mod.reports ++ [x] := by
  simp [State.report, Module.report, h]
@[simp] theorem State.physWrite_mem (s : State) (pa : Nat) (bs : List Byte) :
    (s.physWrite pa bs).mem = s.mem.write pa bs := rfl
@[simp] theorem State.physWriteAt_mem (s : State) (bs : List (Nat × Byte)) :
    (s.physWriteAt bs).mem = s.mem.writeAt bs := rfl

/-! ### Reading a register after an update -/

/-- A register other than the one written, and g0, read as before (R95). -/
theorem State.g_setG_ne (s : State) (i j : GReg) (x : Word) (h : j ≠ i) : (s.setG i x).g j = s.g j := by
  unfold State.g State.setG
  split
  · rfl
  · split
    · rfl
    · have : i.toNat ≠ j.toNat := fun e => h (BitVec.eq_of_toNat_eq e.symm)
      simp [Vector.getElem_set_ne, this]
/-- The register written reads as written; g0 reads zero (R95, R106). -/
@[simp] theorem State.g_setG_self (s : State) (i : GReg) (x : Word) : (s.setG i x).g i = if i = 0 then 0 else x := by
  unfold State.g State.setG
  split <;> simp
@[simp] theorem State.g_zero (s : State) : s.g 0 = 0 := by simp [State.g]
@[simp] theorem State.g_setP (s : State) (i : PReg) (x : Bool) (j : GReg) : (s.setP i x).g j = s.g j := by
  simp [State.g]
@[simp] theorem State.g_retire (s : State) (n : Nat) (j : GReg) : (s.retire n).g j = s.g j := by simp [State.g]
@[simp] theorem State.g_jump (s : State) (a : Word) (j : GReg) : (s.jump a).g j = s.g j := rfl
theorem State.p_setP_ne (s : State) (i j : PReg) (x : Bool) (h : j ≠ i) : (s.setP i x).p j = s.p j := by
  unfold State.p State.setP
  split
  · rfl
  · split
    · rfl
    · have : i.toNat ≠ j.toNat := fun e => h (BitVec.eq_of_toNat_eq e.symm)
      simp [Vector.getElem_set_ne, this]
@[simp] theorem State.p_setP_self (s : State) (i : PReg) (x : Bool) : (s.setP i x).p i = if i = 0 then true else x := by
  unfold State.p State.setP
  split <;> simp
@[simp] theorem State.p_zero (s : State) : s.p 0 = true := by simp [State.p]
@[simp] theorem State.p_setG (s : State) (i : GReg) (x : Word) (j : PReg) : (s.setG i x).p j = s.p j := by
  simp [State.p]
@[simp] theorem State.p_retire (s : State) (n : Nat) (j : PReg) : (s.retire n).p j = s.p j := by simp [State.p]
@[simp] theorem State.p_jump (s : State) (a : Word) (j : PReg) : (s.jump a).p j = s.p j := rfl

end Sys2Proof.Machine
end

