-- ==== Sys2Proof/Safety.lean ====
section
/-! DEFINITION. What a safe run is, and the terms in which claims about the machine are stated: the canonical form of
memory, an instruction that completes, and what it leaves unchanged (its frame). -/

namespace Sys2Proof.Machine

/-! ## Safe runs -/

/-- The physical memory and the private SRAM are in canonical form, so that equal memories are equal data. -/
def State.wf (s : State) : Prop := s.mem.wf = true ∧ s.sram.wf = true
/-- The machine goes on: its next step is a state, neither a fault nor a refusal. -/
def State.goesOn (s : State) : Prop := ∃ t, step s = .next t
/-- A run of n steps that meets no fault and no refusal, through states in canonical form. -/
def State.safeFor : Nat → State → Prop
  | 0, s => s.wf
  | n + 1, s => s.wf ∧ ∃ t, step s = .next t ∧ State.safeFor n t

/-! ## Frames -/

/-- Every byte of physical memory, of the private SRAM and of the resident rank's buffers reads as before. -/
def SameBytes (s t : State) : Prop :=
  (∀ a, t.mem.get a = s.mem.get a) ∧ (∀ a, t.sram.get a = s.sram.get a) ∧
    ∀ b a, (t.rank.buf b).get a = (s.rank.buf b).get a
/-- An instruction of `len` bytes at the PC has retired: the end test of R122 and R123 gives the PC and the loop
counters. -/
def Retired (s t : State) (len : Nat) : Prop :=
  t.r.pc = (endTest s.r.lc s.r.pc (s.r.pc + BitVec.ofNat 64 len)).2 ∧
    t.r.lc = (endTest s.r.lc s.r.pc (s.r.pc + BitVec.ofNat 64 len)).1 ∧ t.run.retired = true
/-- Nothing changed but the PC, the loop counters and the mark that the segment has begun. -/
def OnlyPc (s t : State) : Prop :=
  { t with r := { t.r with pc := s.r.pc, lc := s.r.lc }, run := { t.run with retired := s.run.retired } } = s
/-- Nothing changed but g registers, and what every retire changes: no predicate, flag, CSR, vector or tile register,
accumulator, queue, guard, buffer or memory byte, and nothing of the module. -/
def OnlyG (s t : State) : Prop :=
  { t with r := { t.r with g := s.r.g, pc := s.r.pc, lc := s.r.lc }, run := { t.run with retired := s.run.retired } } = s
/-- Nothing changed but predicate registers, and what every retire changes. -/
def OnlyP (s t : State) : Prop :=
  { t with r := { t.r with p := s.r.p, pc := s.r.pc, lc := s.r.lc }, run := { t.run with retired := s.run.retired } } = s

/-! ## Completion -/

/-- The instruction completes with g[d] := x and retires; a write to g0 is discarded, and every other register, every
flag and every byte is as before. -/
def GivesG (s : State) (i : Instr) (d : GReg) (x : Word) (len : Nat) : Prop :=
  ∃ t, exec i s = .next t ∧ t.g d = (if d = 0 then 0 else x) ∧ (∀ j, j ≠ d → t.g j = s.g j) ∧ Retired s t len ∧
    OnlyG s t ∧ SameBytes s t
/-- The same with a result that a property determines. -/
def GivesGThat (s : State) (i : Instr) (d : GReg) (p : Word → Prop) (len : Nat) : Prop := ∃ x, p x ∧ GivesG s i d x len
/-- The instruction completes with p[d] := x and retires; a write to p0 is discarded. -/
def GivesP (s : State) (i : Instr) (d : PReg) (x : Bool) : Prop :=
  ∃ t, exec i s = .next t ∧ t.p d = (if d = 0 then true else x) ∧ (∀ j, j ≠ d → t.p j = s.p j) ∧ Retired s t 8 ∧
    OnlyP s t ∧ SameBytes s t

/-! ## Conditions and effects that several statements share -/

/-- What a condition says of two values (R112). -/
def Cond.says (c : Cond) (x y : Word) : Prop :=
  match c with
  | .eq => x = y
  | .ne => x ≠ y
  | .lt => x.toInt < y.toInt
  | .ge => y.toInt ≤ x.toInt
  | .ltu => x.toNat < y.toNat
  | .geu => y.toNat ≤ x.toNat
/-- An instruction that must not stand at the end of an active loop counter (R124): LOOP, and the wait points. -/
def notAtLoopEnd (i : Instr) : Prop :=
  (∃ h lc src off, i = .loop h lc src off) ∨ (∃ h ev b p c, i = .evw h ev b p c) ∨ (∃ h n a o c, i = .chooseW h n a o c) ∨
    (∃ h, i = .endTask h) ∨ (∃ h c, i = .yield h c) ∨ (∃ h d ev b c, i = .cdrainWAdd h d ev b c) ∨
    (∃ h d ev b c, i = .cdrainWMov h d ev b c) ∨ (∃ h d ev b c, i = .crecvW h d ev b c)
/-- No vector or matrix command is held behind a guard, a queue register or another command. -/
def State.noneHeld (s : State) : Prop := s.run.vq = [] ∧ s.run.mq = []
/-- An unguarded command may be dispatched and executes at once: its qualifier is true and no command is held. -/
def State.openFor (s : State) (h : Hdr) : Prop := s.qual h = true ∧ h.guard = none ∧ s.noneHeld
/-- A place without its page kind: two places that differ only in it hold the same byte. -/
def Loc.place (l : Loc) : Loc :=
  match l with
  | .phys pa _ => .phys pa 0
  | l => l
/-- After a store of n bytes of x to places, lowest byte first, those places hold the bytes, and every other byte of
physical memory, of the buffers and of the private SRAM is as before. -/
def Stored (s t : State) (ls : List Loc) (x : Word) : Prop :=
  (∀ i (h : i < ls.length), t.fetchByte ls[i] = x.extractLsb' (8 * i) 8) ∧
    ∀ l : Loc, l.place ∉ ls.map Loc.place → t.fetchByte l = s.fetchByte l
/-- An atomic operation on n-bit values: what it writes (R135). -/
def amoSpec {n : Nat} (op : AmoOp) (x y : BitVec n) : BitVec n :=
  match op with
  | .add => x + y
  | .and => x &&& y
  | .or => x ||| y
  | .xor => x ^^^ y
  | .min => if x.toInt ≤ y.toInt then x else y
  | .max => if x.toInt ≤ y.toInt then y else x
  | .minu => if x.toNat ≤ y.toNat then x else y
  | .maxu => if x.toNat ≤ y.toNat then y else x
  | .swap => y
/-- Nothing changed but one g register, bytes of memory, buffers and SRAM with their scratchpad map and poison marks, and
what every retire changes. -/
def OnlyGAndBytes (s t : State) : Prop :=
  { t with
    r := { t.r with g := s.r.g, pc := s.r.pc, lc := s.r.lc }
    run := { t.run with retired := s.run.retired }
    rank := { t.rank with w := s.rank.w, a := s.rank.a, c := s.rank.c, map := s.rank.map, unsaved := s.rank.unsaved }
    mem := s.mem
    sram := s.sram
    mod := { t.mod with poison := s.mod.poison, bufPoison := s.mod.bufPoison } } = s
/-- Nothing changed but vector registers, FPFLAGS, and what every retire changes. -/
def OnlyV (s t : State) : Prop :=
  { t with
    r := { t.r with v := s.r.v, fpflags := s.r.fpflags, pc := s.r.pc, lc := s.r.lc }
    run := { t.run with retired := s.run.retired, gang := s.run.gang } } = s
/-- The instruction completes with a vector result of lanes of w bytes for the leader and, while ganged, for every member
(R171, R187): an enabled lane takes f of the member and lane, a disabled one keeps its bytes. Nothing else changes from u,
the state in which the instruction's scalar operands have been read. -/
def GivesLanes (s u : State) (i : Instr) (d : VReg) (m : MReg) (w len : Nat) (f : Nat → Nat → Nat) : Prop :=
  ∃ t, exec i s = .next t ∧
    (∀ j ∈ u.members, ∀ k < 16 / w,
      lane w k (t.v j d) = if (u.m j m).getLsbD (w * k) = true then f j k % 2 ^ (8 * w) else lane w k (u.v j d)) ∧
    (∀ j ∈ u.members, ∀ r, r ≠ d → t.v j r = u.v j r) ∧ (∀ j r, t.m j r = u.m j r) ∧ t.members = u.members ∧
    t.r.fpflags = u.r.fpflags ∧ Retired u t len ∧ OnlyV u t ∧ SameBytes u t
/-- The same for a floating result: FPFLAGS gains the flags of the enabled lanes when FE is 1 (R45, R172). -/
def GivesLanesF (s u : State) (i : Instr) (d : VReg) (m : MReg) (w : Nat) (f : Nat → Nat → FRes) : Prop :=
  ∃ t, exec i s = .next t ∧
    (∀ j ∈ u.members, ∀ k < 16 / w,
      lane w k (t.v j d) = if (u.m j m).getLsbD (w * k) = true then (f j k).bits % 2 ^ (8 * w) else lane w k (u.v j d)) ∧
    (∀ j ∈ u.members, ∀ r, r ≠ d → t.v j r = u.v j r) ∧ (∀ j r, t.m j r = u.m j r) ∧ t.members = u.members ∧
    (∀ b, t.r.fpflags.getLsbD b = true ↔ u.r.fpflags.getLsbD b = true ∨ (u.r.fe = true ∧ ∃ j ∈ u.members, ∃ k < 16 / w,
      (u.m j m).getLsbD (w * k) = true ∧ (f j k).flags.getLsbD b = true)) ∧
    Retired u t 8 ∧ OnlyV u t ∧ SameBytes u t
/-- A result of integer lanes from two vectors, as an operation on the bits of a lane. -/
def GivesInt2 (s : State) (i : Instr) (l : Lane) (d a b : VReg) (m : MReg)
    (op : BitVec (8 * l.bytes) → BitVec (8 * l.bytes) → BitVec (8 * l.bytes)) : Prop :=
  GivesLanes s s i d m l.bytes 8 (fun j k => (op (BitVec.ofNat _ (lane l.bytes k (s.v j a)))
    (BitVec.ofNat _ (lane l.bytes k (s.v j b)))).toNat)
/-- A result of integer lanes from one vector. -/
def GivesInt1 (s : State) (i : Instr) (l : Lane) (d a : VReg) (m : MReg)
    (op : BitVec (8 * l.bytes) → BitVec (8 * l.bytes)) : Prop :=
  GivesLanes s s i d m l.bytes 8 (fun j k => (op (BitVec.ofNat _ (lane l.bytes k (s.v j a)))).toNat)
/-- A mask result, bit by bit, for every member; a write to m0 is discarded. -/
def GivesMask (s : State) (i : Instr) (d : MReg) (f : Nat → Nat → Prop) : Prop :=
  ∃ t, exec i s = .next t ∧
    (∀ j ∈ s.members, ∀ b < 16, (t.m j d).getLsbD b = true ↔ d = 0 ∨ f j b) ∧
    (∀ j ∈ s.members, ∀ r, r ≠ d → t.m j r = s.m j r) ∧ (∀ j r, t.v j r = s.v j r) ∧ t.members = s.members ∧
    Retired s t 8 ∧ SameBytes s t ∧
    { t with
      r := { t.r with m := s.r.m, pc := s.r.pc, lc := s.r.lc }
      run := { t.run with retired := s.run.retired, gang := s.run.gang } } = s
/-- A scalar operand of a vector or matrix command, when it is read at once: a g register, or the oldest entry of a queue
register, which leaves it and whose reader becomes the stream (R16, R172). -/
def ReadsSource (s : State) (st : Stream) (x : ScalarSrc) (v : Word) (u : State) : Prop :=
  (∀ r, x = .g r → v = s.g r ∧ u = s) ∧
  (∀ q, x = .q q → (s.run.qrole[q.toNat].reader = none ∨ s.run.qrole[q.toNat].reader = some st) ∧
    ∃ rest, s.r.q[q.toNat] = v :: rest ∧ u = { s with
      r := { s.r with q := s.r.q.set q.toNat rest }
      run := { s.run with qrole := s.run.qrole.set q.toNat { s.run.qrole[q.toNat] with reader := some st } } })
/-- No byte is poisoned, no peer part has failed, and no page of one that failed is still mapped. -/
def State.clean (s : State) : Prop :=
  s.mod.poison = [] ∧ s.mod.bufPoison = [] ∧ s.mod.failed = [] ∧ s.mod.lostPages = []
/-- No peer part or host is behind a link that is down. -/
def State.linked (s : State) : Prop := ∀ pa, s.waitsLink pa = false
/-- Bytes have landed at places: those places hold them, and every other byte is as before. -/
def Landed (s t : State) (xs : List (Loc × Byte)) : Prop :=
  (∀ x ∈ xs, t.fetchByte x.1 = x.2) ∧
    ∀ l : Loc, l.place ∉ xs.map (fun x => x.1.place) → t.fetchByte l = s.fetchByte l
/-- Places that are all different bytes, each stored to at once: no page of kind RC or UN, nothing outside the module, no
earlier SO access still on its way, and, for a store that is split, no page at all (R31, R131). -/
def State.plainPlaces (s : State) (split : Bool) (ls : List Loc) : Prop :=
  (∀ l ∈ ls, ∀ ord, s.storeClass ord split l = .now) ∧ (ls.map Loc.place).Nodup
/-- The condition of a compare on n-bit lanes (R112, R177). -/
def laneSays {n : Nat} (c : Cond) (x y : BitVec n) : Prop :=
  match c with
  | .eq => x = y
  | .ne => x ≠ y
  | .lt => x.toInt < y.toInt
  | .ge => y.toInt ≤ x.toInt
  | .ltu => x.toNat < y.toNat
  | .geu => y.toNat ≤ x.toNat
/-- The condition of a floating compare (R177): −0 equals +0, and a NaN makes eq, lt and ge false and ne true. -/
def floatSays (c : Cond) (x y : FVal) : Prop :=
  match c with
  | .eq => x ≠ .nan ∧ y ≠ .nan ∧ x.ltNum y = false ∧ y.ltNum x = false
  | .ne => x = .nan ∨ y = .nan ∨ x.ltNum y = true ∨ y.ltNum x = true
  | .lt => x ≠ .nan ∧ y ≠ .nan ∧ x.ltNum y = true
  | .ge => x ≠ .nan ∧ y ≠ .nan ∧ x.ltNum y = false
  | _ => False
/-- What a load makes of its bytes, lowest first (R132): the value little-endian, then zeros or copies of the sign. -/
def Extends (x : Word) (wd : LdW) (bs : List Byte) : Prop :=
  (∀ i (h : i < bs.length), x.extractLsb' (8 * i) 8 = bs[i]) ∧
  ∀ k, 8 * bs.length ≤ k → k < 64 → x.getLsbD k =
    (match wd with
     | .bu => false | .hu => false | .wu => false
     | _ => x.getLsbD (8 * bs.length - 1))
/-- A wait instruction with its length in bytes (R81). -/
def IsWait (i : Instr) (h : Hdr) (len : Nat) : Prop :=
  (∃ ev b p c, i = .evw h ev b p c ∧ len = 12) ∨ (∃ n a o c, i = .chooseW h n a o c ∧ len = 8) ∨
    (∃ c, i = .yield h c ∧ len = 8) ∨ (∃ d ev b c, i = .cdrainWAdd h d ev b c ∧ len = 12) ∨
    (∃ d ev b c, i = .cdrainWMov h d ev b c ∧ len = 12) ∨ (∃ d ev b c, i = .crecvW h d ev b c ∧ len = 12)
/-- A try with its length in bytes; `recv` is the accumulator that a trying receive fills (R155, R199). -/
def IsTry (i : Instr) (h : Hdr) (len : Nat) (recv : Option CReg) : Prop :=
  (∃ ev b p, i = .evt h ev b p ∧ len = 12 ∧ recv = none) ∨ (∃ n a o, i = .chooseT h n a o ∧ len = 8 ∧ recv = none) ∨
    (∃ d ev b, i = .cdrainTAdd h d ev b ∧ len = 12 ∧ recv = none) ∨
    (∃ d ev b, i = .cdrainTMov h d ev b ∧ len = 12 ∧ recv = none) ∨
    (∃ d ev b, i = .crecvT h d ev b ∧ len = 12 ∧ recv = some d)
/-- EVSTAT and p1 as a wait, a try or a completion reports them (R34, R40): the event's name, the instance, the
alternative and the status; nothing else changes but what a retire of `len` bytes changes. -/
def Reports (s t : State) (st : Status) (ev inst alt len : Nat) : Prop :=
  t.r.evstat.extractLsb' 0 4 = BitVec.ofNat 4 st.code ∧ t.r.evstat.extractLsb' 5 3 = BitVec.ofNat 3 alt ∧
    t.r.evstat.extractLsb' 8 20 = BitVec.ofNat 20 ev ∧ t.r.evstat.extractLsb' 32 32 = BitVec.ofNat 32 inst ∧
    t.r.evstat.extractLsb' 4 1 = 0 ∧ t.r.evstat.extractLsb' 28 4 = 0 ∧
    t.p 1 = (match st with | .occurred => true | .empty => true | _ => false) ∧ (∀ j, j ≠ 1 → t.p j = s.p j) ∧
    t.r.g = s.r.g ∧ t.r.v = s.r.v ∧ t.r.m = s.r.m ∧ t.r.q = s.r.q ∧ t.r.k = s.r.k ∧ t.r.fstat = s.r.fstat ∧
    t.r.mx = s.r.mx ∧ t.r.tcfg = s.r.tcfg ∧ t.r.segseq = s.r.segseq ∧ t.mod = s.mod ∧ Retired s t len ∧ SameBytes s t
/-- The request of a scalar remote access to the rank that g[b] names: under the part's next number, from the running task's
core to the core that the rank is bound to (R139, R323). -/
def State.request (s : State) (b : GReg) (buf : Buf) (ea : Word) (op : RemOp) : RemoteReq :=
  let tgt : RankKey := { launch := s.rank.key.launch, rank := (s.g b).toNat }
  { id := s.mod.nextId
    seq := s.seqOf s.core
    src := { task := s.run.task, core := s.core, rank := s.rank.key }
    pc := s.r.pc
    tgt := tgt
    at_ := s.coreOf tgt
    buf := buf
    off := ea.toNat
    op := op
    cast := none }
/-- A segment with nothing left to finish before its end: no accesses on their way, no held command, no bound guard, no
deferred effect, no modified summary pair, no gang, every unit of its record fetched, and it runs on its rank's own core
with no pre-emption asked. -/
def State.finished (s : State) : Prop :=
  s.run.kind = .compute ∧ s.noneHeld ∧ (∀ k (h : k < 8), s.r.k[k].bound = false) ∧ s.run.gq = [] ∧ s.run.comb = [] ∧
    s.run.flight = [] ∧ s.run.out = [] ∧ s.run.deferred = [] ∧ s.run.pairs = [] ∧ s.run.gang = none ∧ s.run.unread = 0 ∧
    s.run.visit = none ∧ s.run.committing = false ∧ s.run.resume = false ∧ s.curHandler = false ∧
    s.commitBlocked = false ∧ (s.sched s.core).asked = [] ∧ s.atLoopEnd = false
/-- What a wait leaves of a task (R20 to R23): its record holds the registers that the mask covers, the others of the mask's
files zero, the PC at the wait, and the next segment number; the record's bytes lie where R333 puts them, and every other
byte is as before, but for the dirty bitmap where the record lies beyond its core's record area (R354); the core runs
nothing. -/
def SavesTask (s t : State) (k : Task) (mask : Word) : Prop :=
  t.task s.run.task = some k ∧ k.resume = true ∧ k.kept = mask ∧ k.saved.pc = s.r.pc ∧ k.saved.segseq = s.r.segseq + 1 ∧
    (∀ j (h : j < 32), k.saved.g[j] = if mask.getLsbD j = true then s.r.g[j] else 0) ∧
    (∀ j (h : j < 16), k.saved.v[j] = if mask.getLsbD (32 + j) = true then s.r.v[j] else 0) ∧
    (∀ j (h : j < 16), k.saved.v[16 + j] = if mask.getLsbD (48 + j / 2) = true then s.r.v[16 + j] else 0) ∧
    k.saved.p = s.r.p ∧ k.saved.m = s.r.m ∧ k.saved.q = s.r.q ∧ k.saved.lc = s.r.lc ∧ k.saved.mx = s.r.mx ∧
    k.saved.tcfg = s.r.tcfg ∧ k.saved.fpflags = s.r.fpflags ∧ k.saved.evstat = s.r.evstat ∧ k.saved.live = s.r.live ∧
    t.run.on = false ∧
    (∀ a, s.recordAt k = some a → t.mem.read a 8 = natBytes 8 s.r.pc.toNat ∧
      t.mem.read (a + 0x6740) 8 = natBytes 8 (s.r.segseq + 1).toNat ∧
      ∀ j (h : j < 32), mask.getLsbD j = true → t.mem.read (a + 0x1C0 + 8 * j) 8 = natBytes 8 s.r.g[j].toNat) ∧
    (∀ b, (∀ a, s.recordAt k = some a → b < a ∨ a + 0x6800 ≤ b) →
      (∀ c, k.place ≠ none → s.ctx k.ctx = some c → b < c.dirtybase.toNat ∨ c.dirtybase.toNat + 2 ^ 19 ≤ b) →
      t.mem.get b = s.mem.get b) ∧
    (∀ b, t.sram.get b = s.sram.get b) ∧ ∀ b o, (t.rank.buf b).get o = (s.rank.buf b).get o
/-- A deferred effect joins the segment's list and the instruction retires; nothing else changes (R161). -/
def Defers (s : State) (i : Instr) (d : Deferred) (len : Nat) : Prop :=
  exec i s = .next (State.retire { s with run := { s.run with deferred := s.run.deferred ++ [d] } } len)
/-- The instruction completes and leaves exactly the state t. -/
def Gives (s : State) (i : Instr) (t : State) : Prop := exec i s = .next t
/-- A transfer of control to a target: the PC becomes the target and nothing else changes, but a target whose bits 1:0
are nonzero traps ALIGN at the instruction (R88). -/
def Jumps (s : State) (i : Instr) (target : Word) : Prop :=
  (target.extractLsb' 0 2 = 0 →
    exec i s = .next { s with r := { s.r with pc := target }, run := { s.run with retired := true } }) ∧
  (target.extractLsb' 0 2 ≠ 0 → exec i s = .next (s.trap .align target))
/-- What csrw, csrs and csrc of a CSR come to, field by field (R116): `rw` marks its writable bits, `w1c` the bits that a 1
clears and `rsv` its reserved bits; `put` is the state after the CSR takes a value, or none where its own rule refuses
that value. -/
def CsrWrites (s : State) (h : Hdr) (csr : BitVec 12) (a : GReg) (rw w1c rsv old : Word) (put : Word → Option State) :
    Prop :=
  let done (i : Instr) (x : Word) : Prop :=
    (∀ t, put x = some t → exec i s = .next (t.retire 8)) ∧ (put x = none → exec i s = .next (s.trap .illegal))
  (s.g a &&& rsv = 0 →
    done (.csrw h csr a) ((s.g a &&& rw) ||| (old &&& ~~~s.g a &&& w1c) ||| (old &&& ~~~rw &&& ~~~w1c)) ∧
    done (.csrs h csr a) (((old ||| s.g a) &&& rw) ||| (old &&& ~~~rw))) ∧
  (s.g a &&& rsv ≠ 0 →
    exec (.csrw h csr a) s = .next (s.trap .illegal) ∧ exec (.csrs h csr a) s = .next (s.trap .illegal)) ∧
  done (.csrc h csr a) ((old &&& ~~~s.g a &&& (rw ||| w1c)) ||| (old &&& ~~~(rw ||| w1c)))
/-- The numbers of the task-level CSRs (R33). -/
def taskCsrNumbers : List Nat :=
  [0x000, 0x001, 0x002, 0x003, 0x004, 0x005, 0x006, 0x008, 0x009] ++ List.range' 0x010 8 ++ List.range' 0x020 4 ++
    [0x024, 0x028, 0x029, 0x030, 0x031, 0x032] ++ List.range' 0x040 8 ++ [0x050, 0x060, 0x070]
/-- The numbers of the supervisor CSRs (R220, R325, R340, R352, R363). -/
def supCsrNumbers : List Nat :=
  List.range' 0x800 11 ++ List.range' 0x810 8 ++ [0x8C0] ++ List.range' 0x900 10 ++ List.range' 0xA00 12
/-- The four CSR instructions of one CSR. -/
def IsCsr (i : Instr) (h : Hdr) (csr : BitVec 12) (g : GReg) : Prop :=
  i = .csrr h g csr ∨ i = .csrw h csr g ∨ i = .csrs h csr g ∨ i = .csrc h csr g
/-- A window value that R28 accepts: no reserved bit, BUF not 11, and BASE + LEN within the buffer. -/
def WindowOk (x : Word) : Prop :=
  x.getLsbD 56 = false ∧ x.extractLsb' 0 14 = 0 ∧
    ((x.extractLsb' 60 2 = 0 ∧ (x.extractLsb' 14 15).toNat + (x.extractLsb' 29 15).toNat ≤ 16384) ∨
     (x.extractLsb' 60 2 = 1 ∧ (x.extractLsb' 14 15).toNat + (x.extractLsb' 29 15).toNat ≤ 8192) ∨
     (x.extractLsb' 60 2 = 2 ∧ (x.extractLsb' 14 15).toNat + (x.extractLsb' 29 15).toNat ≤ 8192))
/-- Nothing changed but tiles, accumulators, amax registers, FPFLAGS, and what every retire changes. -/
def OnlyM (s t : State) : Prop :=
  { t with
    r := { t.r with
      t := s.r.t
      c := s.r.c
      mx := s.r.mx
      mxflag := s.r.mxflag
      fpflags := s.r.fpflags
      pc := s.r.pc
      lc := s.r.lc }
    run := { t.run with retired := s.run.retired } } = s
/-- The bytes of a tile in a layout: byte x of row j is `src j x`, and the offsets that no row uses hold what they held
(R53). -/
def TiledAs (c : TCfg) (x old : Memory) (src : Nat → Nat → Byte) : Prop :=
  (∀ j < c.rows, ∀ b < c.colb, x.get (c.off j (b / esize c.fmt) (b % esize c.fmt)) = src j b) ∧
    ∀ o, (∀ j < c.rows, ∀ b < c.colb, o ≠ c.off j (b / esize c.fmt) (b % esize c.fmt)) → x.get o = old.get o
/-- The place of byte x of row j of a tile access (R191). -/
def State.rowPlace (s : State) (mem : TMem) (ea : Word) (stride : BitVec 16) (j x : Nat) : Loc :=
  match tmemBuf mem with
  | some b => .buf b ((ea + BitVec.ofNat 64 (j * stride.toNat)).toNat + x)
  | none => s.locOf ((ea + BitVec.ofNat 64 (j * stride.toNat)).toNat + x)
/-- The sum of one MMA path before it joins the accumulator: one rounding of the exact sum of `cnt` products from k = start
(R50). -/
def mmaDot (ca cb : TCfg) (ta tb : Tile) (i n start cnt : Nat) : Nat :=
  (fmtF32.ofVal .rne (exactSum (products ca cb ta tb i n start cnt)).1).bits
/-- Nothing changed but the C buffer with its scratchpad map, the list of open pairs, FPFLAGS, and what every retire
changes. -/
def OnlyPair (s t : State) : Prop :=
  { t with
    r := { t.r with fpflags := s.r.fpflags, pc := s.r.pc, lc := s.r.lc }
    run := { t.run with retired := s.run.retired, pairs := s.run.pairs }
    rank := { t.rank with c := s.rank.c, map := s.rank.map, unsaved := s.rank.unsaved } } = s
/-- A summary instruction has left `k` in the working copy of the pair at `off` (R57): the pair is open and refreshed, the
TOGGLE byte and the committed copy are as before, as is every byte outside the pair, and FPFLAGS gains the flags when FE
is 1. -/
def LeavesSummary (s u : State) (off : Nat) (k : Sk) (fl : Flags) : Prop :=
  (∀ o < 4096, o ≠ 2 → o ≠ 3 → u.rank.c.get (workingOff s.rank.c off + o) = (k.bytes false 0).getD o 0) ∧
    (u.rank.c.get (workingOff s.rank.c off + 2) &&& 0xFD = (k.bytes false 0).getD 2 0) ∧
    (∀ o < 4096, u.rank.c.get (committedOff s.rank.c off + o) = s.rank.c.get (committedOff s.rank.c off + o)) ∧
    u.rank.c.get (off + 3) = s.rank.c.get (off + 3) ∧
    (∀ o, o < off ∨ off + 8192 ≤ o → u.rank.c.get o = s.rank.c.get o) ∧
    (∃ p ∈ u.run.pairs, p.off = off ∧ p.refreshed = true) ∧
    (∀ b, u.r.fpflags.getLsbD b = true ↔ s.r.fpflags.getLsbD b = true ∨ (s.r.fe = true ∧ fl.getLsbD b = true)) ∧
    Retired s u 8 ∧ OnlyPair s u

end Sys2Proof.Machine
end

