-- ==== Sys2Proof/Certificates/Slice0/Obligations.lean ====
section
/-! DEFINITION. The statements about this machine, for the provers. Each docstring names the rules of spec/ that the
statement formalises. -/

open Sys2Proof Sys2Proof.Machine

/-! ## Integer and predicate instructions -/

/-- R106, R107: the two-source results, modulo 2^64, and that nothing else changes. A destination may equal a
source; a write to g0 is discarded. -/
def Sys2Proof.Claims.IntegerResults : Prop :=
  ∀ (h : Hdr) (d a b : GReg) (s : State), s.qual h = true →
    GivesG s (.add h d a b) d (s.g a + s.g b) 8 ∧
    GivesG s (.sub h d a b) d (s.g a - s.g b) 8 ∧
    GivesG s (.and h d a b) d (s.g a &&& s.g b) 8 ∧
    GivesG s (.or h d a b) d (s.g a ||| s.g b) 8 ∧
    GivesG s (.xor h d a b) d (s.g a ^^^ s.g b) 8 ∧
    GivesG s (.andn h d a b) d (s.g a &&& ~~~(s.g b)) 8 ∧
    GivesG s (.shl h d a b) d (s.g a <<< ((s.g b).toNat % 64)) 8 ∧
    GivesG s (.shr h d a b) d (s.g a >>> ((s.g b).toNat % 64)) 8 ∧
    GivesG s (.sar h d a b) d ((s.g a).sshiftRight ((s.g b).toNat % 64)) 8 ∧
    GivesGThat s (.ror h d a b) d
      (fun x => ∀ i < 64, x.getLsbD i = (s.g a).getLsbD ((i + (s.g b).toNat % 64) % 64)) 8 ∧
    GivesG s (.min h d a b) d (if (s.g a).toInt ≤ (s.g b).toInt then s.g a else s.g b) 8 ∧
    GivesG s (.max h d a b) d (if (s.g a).toInt ≤ (s.g b).toInt then s.g b else s.g a) 8 ∧
    GivesG s (.minu h d a b) d (if (s.g a).toNat ≤ (s.g b).toNat then s.g a else s.g b) 8 ∧
    GivesG s (.maxu h d a b) d (if (s.g a).toNat ≤ (s.g b).toNat then s.g b else s.g a) 8 ∧
    GivesG s (.mul h d a b) d (s.g a * s.g b) 8 ∧
    GivesG s (.mulh h d a b) d (((s.g a).signExtend 128 * (s.g b).signExtend 128).extractLsb' 64 64) 8 ∧
    GivesG s (.mulhu h d a b) d (((s.g a).setWidth 128 * (s.g b).setWidth 128).extractLsb' 64 64) 8 ∧
    GivesG s (.addw h d a b) d (((s.g a + s.g b).setWidth 32).signExtend 64) 8 ∧
    GivesG s (.subw h d a b) d (((s.g a - s.g b).setWidth 32).signExtend 64) 8 ∧
    GivesG s (.mulw h d a b) d (((s.g a * s.g b).setWidth 32).signExtend 64) 8

/-- R108: quotients round toward zero, remainders take the dividend's sign, and the two corners have fixed results;
none of the four traps. -/
def Obligations.DivisionResults : Prop :=
  ∀ (h : Hdr) (d a b : GReg) (s : State), s.qual h = true →
    GivesGThat s (.div h d a b) d (fun x =>
      (s.g b = 0 → x = 0xFFFFFFFFFFFFFFFF) ∧
      (s.g a = 0x8000000000000000 → s.g b = 0xFFFFFFFFFFFFFFFF → x = s.g a) ∧
      (s.g b ≠ 0 → ¬(s.g a = 0x8000000000000000 ∧ s.g b = 0xFFFFFFFFFFFFFFFF) →
        x.toInt = (s.g a).toInt.tdiv (s.g b).toInt)) 8 ∧
    GivesGThat s (.divu h d a b) d (fun x =>
      (s.g b = 0 → x = 0xFFFFFFFFFFFFFFFF) ∧ (s.g b ≠ 0 → x.toNat = (s.g a).toNat / (s.g b).toNat)) 8 ∧
    GivesGThat s (.rem h d a b) d (fun x =>
      (s.g b = 0 → x = s.g a) ∧
      (s.g a = 0x8000000000000000 → s.g b = 0xFFFFFFFFFFFFFFFF → x = 0) ∧
      (s.g b ≠ 0 → ¬(s.g a = 0x8000000000000000 ∧ s.g b = 0xFFFFFFFFFFFFFFFF) →
        x.toInt = (s.g a).toInt - (s.g b).toInt * (s.g a).toInt.tdiv (s.g b).toInt)) 8 ∧
    GivesGThat s (.remu h d a b) d (fun x =>
      (s.g b = 0 → x = s.g a) ∧
      (s.g b ≠ 0 → x.toNat = (s.g a).toNat - (s.g b).toNat * ((s.g a).toNat / (s.g b).toNat))) 8

/-- R109: the one-source, extension and bit-field results, bit by bit, for the field values that decode. -/
def Obligations.BitFormResults : Prop :=
  ∀ (h : Hdr) (d a : GReg) (n width : BitVec 7) (lsb : BitVec 6) (s : State), s.qual h = true →
    GivesGThat s (.clz h d a) d (fun x =>
      x.toNat ≤ 64 ∧ (∀ i, 64 - x.toNat ≤ i → (s.g a).getLsbD i = false) ∧
        (x.toNat < 64 → (s.g a).getLsbD (63 - x.toNat) = true)) 8 ∧
    GivesGThat s (.ctz h d a) d (fun x =>
      x.toNat ≤ 64 ∧ (∀ i < x.toNat, (s.g a).getLsbD i = false) ∧
        (x.toNat < 64 → (s.g a).getLsbD x.toNat = true)) 8 ∧
    GivesGThat s (.popc h d a) d (fun x => x.toNat = ((List.range 64).filter (fun i => (s.g a).getLsbD i)).length) 8 ∧
    GivesGThat s (.bswap h d a) d (fun x =>
      ∀ i < 8, x.extractLsb' (8 * i) 8 = (s.g a).extractLsb' (8 * (7 - i)) 8) 8 ∧
    (1 ≤ n.toNat → n.toNat ≤ 64 →
      GivesGThat s (.sext h d a n) d (fun x =>
        ∀ i < 64, x.getLsbD i = (s.g a).getLsbD (if i < n.toNat then i else n.toNat - 1)) 8 ∧
      GivesGThat s (.zext h d a n) d (fun x =>
        ∀ i < 64, x.getLsbD i = (decide (i < n.toNat) && (s.g a).getLsbD i)) 8) ∧
    (1 ≤ width.toNat → lsb.toNat + width.toNat ≤ 64 →
      GivesGThat s (.bfx h d a lsb width) d (fun x =>
        ∀ i < 64, x.getLsbD i = (decide (i < width.toNat) && (s.g a).getLsbD (lsb.toNat + i))) 8 ∧
      GivesGThat s (.bfi h d a lsb width) d (fun x =>
        ∀ i < 64, x.getLsbD i = (if lsb.toNat ≤ i ∧ i < lsb.toNat + width.toNat then (s.g a).getLsbD (i - lsb.toNat)
          else (s.g d).getLsbD i)) 8)

/-- R110, R111: the immediate forms use the sign-extended imm30, or a count of six bits; MOVL writes its literal and
PCREL an address relative to its own. -/
def Sys2Proof.Claims.ImmediateResults : Prop :=
  ∀ (h : Hdr) (d a : GReg) (imm : BitVec 30) (n : BitVec 6) (lit : BitVec 64) (off : BitVec 32) (s : State),
    s.qual h = true →
    GivesG s (.addi h d a imm) d (s.g a + imm.signExtend 64) 8 ∧
    GivesG s (.andi h d a imm) d (s.g a &&& imm.signExtend 64) 8 ∧
    GivesG s (.ori h d a imm) d (s.g a ||| imm.signExtend 64) 8 ∧
    GivesG s (.xori h d a imm) d (s.g a ^^^ imm.signExtend 64) 8 ∧
    GivesG s (.shli h d a n) d (s.g a <<< n.toNat) 8 ∧
    GivesG s (.shri h d a n) d (s.g a >>> n.toNat) 8 ∧
    GivesG s (.sari h d a n) d ((s.g a).sshiftRight n.toNat) 8 ∧
    GivesGThat s (.rori h d a n) d (fun x => ∀ i < 64, x.getLsbD i = (s.g a).getLsbD ((i + n.toNat) % 64)) 8 ∧
    GivesG s (.mini h d a imm) d (if (s.g a).toInt ≤ imm.toInt then s.g a else imm.signExtend 64) 8 ∧
    GivesG s (.maxi h d a imm) d (if (s.g a).toInt ≤ imm.toInt then imm.signExtend 64 else s.g a) 8 ∧
    GivesG s (.addwi h d a imm) d (((s.g a + imm.signExtend 64).setWidth 32).signExtend 64) 8 ∧
    GivesG s (.movl h d lit) d lit 16 ∧
    GivesG s (.pcrel h d off) d (s.r.pc + off.signExtend 64) 12

/-- R112 to R114: comparisons, predicate operations and SEL. -/
def Obligations.PredicateResults : Prop :=
  ∀ (h : Hdr) (d a b : PReg) (gd ga gb : GReg) (imm : BitVec 30) (v : BitVec 1) (s : State), s.qual h = true →
    (∀ y : Word, ∀ mk : Cond → Instr,
      ((∃ x, mk = (fun c => .cmp h c d ga x) ∧ y = s.g x) ∨ (mk = (fun c => .cmpi h c d ga imm) ∧ y = imm.signExtend 64)) →
      GivesP s (mk .eq) d (decide (s.g ga = y)) ∧
      GivesP s (mk .ne) d (decide (s.g ga ≠ y)) ∧
      GivesP s (mk .lt) d (decide ((s.g ga).toInt < y.toInt)) ∧
      GivesP s (mk .ge) d (decide (y.toInt ≤ (s.g ga).toInt)) ∧
      GivesP s (mk .ltu) d (decide ((s.g ga).toNat < y.toNat)) ∧
      GivesP s (mk .geu) d (decide (y.toNat ≤ (s.g ga).toNat))) ∧
    GivesP s (.pand h d a b) d (s.p a && s.p b) ∧
    GivesP s (.por h d a b) d (s.p a || s.p b) ∧
    GivesP s (.pxor h d a b) d (s.p a != s.p b) ∧
    GivesP s (.pandn h d a b) d (s.p a && !s.p b) ∧
    GivesP s (.pnot h d a) d (!s.p a) ∧
    GivesP s (.pmov h d a) d (s.p a) ∧
    GivesP s (.pset h d v) d (v.getLsbD 0) ∧
    GivesG s (.sel h gd a ga gb) gd (if s.p a = true then s.g ga else s.g gb) 8

/-! ## Qualifiers and privilege -/

/-- R91: an instruction with a false qualifier has no effect but its retire, whatever it is. Two things are checked
before the qualifier: a supervisor instruction at task level (R98), and an instruction that R124 keeps from the end
of an active loop counter. -/
def Obligations.FalseQualifierOnlyRetires : Prop :=
  ∀ (i : Instr) (h : Hdr) (w : BitVec 128) (n : Nat) (s : State),
    i.hdr? = some h → encode i = some w → lenBytes (w.extractLsb' 0 2) = some n → s.qual h = false →
    (supervisorOnly i = true → s.supervisor = true) → (notAtLoopEnd i → s.atLoopEnd = false) →
    exec i s = .next (s.retire n) ∧ OnlyPc s (s.retire n) ∧ SameBytes s (s.retire n)

/-- R98: a supervisor instruction at task level traps PRIV, whatever its qualifier and operands. -/
def Obligations.SupervisorInstructionsTrapPriv : Prop :=
  ∀ (i : Instr) (s : State), supervisorOnly i = true → s.supervisor = false → exec i s = .next (s.trap .priv)


/-! ## Encoding, decoding and the step -/

/-- R90 to R100: decoding the word of a well-formed instruction gives that instruction back, with every operand at
every value that the encoding admits. -/
def Obligations.DecodeEncodeRoundTrip : Prop :=
  ∀ (i : Instr) (w : BitVec 128), WellFormed i = true → encode i = some w → decode w = .instr i

/-- R95, R100: a word that decodes is exactly the word of a well-formed instruction: no reserved bit of it is set,
and no other word decodes to the same instruction. -/
def Obligations.DecodedWordsReencode : Prop :=
  ∀ (w : BitVec 128) (i : Instr), decode w = .instr i → i ≠ .unassignedOpcode →
    encode i = some w ∧ WellFormed i = true ∧ ∀ u, decode u = .instr i → u = w

/-- R90, R97, R99: a word with LEN 11 or an opcode outside the opcode map is an unassigned opcode, which traps
ILLEGAL in every mode. -/
def Sys2Proof.Claims.UnassignedOpcodesTrapIllegal : Prop :=
  ∀ (w : BitVec 128) (s : State),
    (decode w = .instr .unassignedOpcode ↔
      w.extractLsb' 0 2 = 3 ∨ (w.extractLsb' 2 8).toNat ∉
        (List.range' 0x01 9 ++ List.range' 0x20 10 ++ List.range' 0x30 13 ++ List.range' 0x50 10 ++ List.range' 0x60 21 ++
          List.range' 0x90 12 ++ List.range' 0xB0 4 ++ List.range' 0xC0 6 ++ List.range' 0xD0 7)) ∧
    exec .unassignedOpcode s = .next (s.trap .illegal)

/-- Words written out bit by bit from R90, R92, R93 and R97 decode to the instructions they stand for. -/
def Obligations.SomeWordsDecode : Prop :=
  decode 0x62080004 = .instr (.add ⟨0, false, none⟩ 1 2 3) ∧
  decode 0xFFFFFFFC02080008 = .instr (.addi ⟨0, false, none⟩ 1 2 0x3FFFFFFF) ∧
  decode 0x8877665544332211000000000008000E = .instr (.movl ⟨0, false, none⟩ 1 0x8877665544332211) ∧
  decode 0x0000000800000300020800C1 = .instr (.ld ⟨0, false, none⟩ .d 1 2 8) ∧
  decode 0xFFFFFFEE20300080 = .instr (.b ⟨0, false, none⟩ .ne 6 0 0x7FFFFFF7) ∧
  decode 0x000000050002018000000095 = .instr (.loop ⟨0, false, none⟩ 1 (.imm 2) 5) ∧
  decode 0x0002010062080180 = .instr (.vadd ⟨0, false, none⟩ .w 1 2 3 2) ∧
  decode 0x000000050000000000000141 = .instr (.evw ⟨0, false, none⟩ 5 0 none 0) ∧
  decode 0x158 = .instr (.endTask ⟨0, false, none⟩)

/-- R88, R100, R120: what a fetch at the PC gives, in the order of its checks: the trap of reading LEN, LEN 11, an
instruction that would cross a 32-byte boundary, the trap of reading the rest, and else what the decoder reads. -/
def Sys2Proof.Claims.FetchChecks : Prop :=
  ∀ (s : State),
    (∀ t, s.fetchTrap s.r.pc 4 = some t → s.fetch = .trap t) ∧
    (s.fetchTrap s.r.pc 4 = none → ((s.fetchBytes s.r.pc 1).headD 0).extractLsb' 0 2 = 3 →
      s.fetch = .trap { trap := .illegal, addr := 0 }) ∧
    (∀ n, s.fetchTrap s.r.pc 4 = none → lenBytes (((s.fetchBytes s.r.pc 1).headD 0).extractLsb' 0 2) = some n →
      (32 < s.r.pc.toNat % 32 + n → s.fetch = .trap { trap := .align, addr := s.r.pc }) ∧
      (s.r.pc.toNat % 32 + n ≤ 32 →
        (∀ t, s.fetchTrap s.r.pc n = some t → s.fetch = .trap t) ∧
        (s.fetchTrap s.r.pc n = none → s.fetch = .got (decodeBytes (s.fetchBytes s.r.pc n)))))

/-- A step runs the decoded instruction: time passes (the model's choice, log 4), and when a core's turn is chosen
(log 5) and no interrupt is pending for it, its held commands that may run now run; where its segment is not at its
end and the bytes at its PC decode to i, the step is exec of i at that core, its page touched (R337; log 19). An
instruction that executes first has the units of its record fetched that it uses (R229), and cancels what is on its
way to a register that it writes (logs 15, 16); a loop-back to a start with bits 1:0 nonzero traps ALIGN in its
place (R88). Where there is nothing to fetch, nothing on its way and no such start, the step is exec of i alone. A
crown core runs the instructions of R303 only. -/
def Obligations.StepRunsTheDecodedInstruction : Prop :=
  ∀ (s : State) (n : Nat) (i : Instr) (v u t : State),
    s.advance.choose = some (.core n) → (s.advance.focus n).interrupted = false →
    v = { s.advance.focus n with doing := none } → v.pump v.run.held.length = .ok u → u.run.ending = none →
    u.fetch = .got (.instr i) → t = u.touchAll u.r.pc.toNat 4 false → (t.run.kind = .crown → crownRuns i = true) →
    t.hazard i = .clear →
    step s = t.looped (exec i (if t.executes i = true then (t.fetchUnits (unitsOf i)).overwriteAll (gWrites i) else t)) ∧
    (t.run.held = [] → t.awaited = [] → t.run.unread = 0 → (∀ j (h : j < 2), t.r.lc[j].s.toNat % 4 = 0) →
      step s = exec i t)

/-- The other things a core's turn can give, whose turn it is being a free choice (log 5): a pending interrupt is
taken at the PC (R340); a held command that consumes a poisoned byte traps at its own address (R361); a segment that
is at its end goes on with it (R23); a word that does not decode traps ILLEGAL and a failed fetch traps (R100), an
instruction whose register is awaited stalls (R129), and one that reads a register of a held command is a deadlock
(R126; log 15). -/
def Sys2Proof.Claims.StepTakesOtherTurns : Prop :=
  ∀ (s v u : State) (n : Nat), s.advance.choose = some (.core n) → v = { s.advance.focus n with doing := none } →
    ((s.advance.focus n).interrupted = true → v.run.idle = false →
      step s = .next (State.enterTrap { s.advance.focus n with doing := some (.interrupt v.core) } 0 v.r.pc 0)) ∧
    ((s.advance.focus n).interrupted = false →
      (∀ w x pc, v.pump v.run.held.length = .stop w x pc → step s = .next (w.trapAt x pc)) ∧
      (v.pump v.run.held.length = .ok u →
        (∀ k, u.run.ending = some k → step s = .next (u.endStep k)) ∧
        (u.run.ending = none → (∀ why, u.fetch = .got (.illegal why) → step s = .next (u.trap .illegal)) ∧
          (∀ x, u.fetch = .trap x → step s = .next (u.fetchFault x)) ∧
          ∀ i t, u.fetch = .got (.instr i) → t = u.touchAll u.r.pc.toNat 4 false → t.run.kind ≠ .crown →
            (t.hazard i = .stall → step s = .next t) ∧ (t.hazard i = .blocked → step s = .next t.deadlock))))

/-- A step owed is taken off the list and runs as the row it names (the list and the choice are the model's, log 5);
when nothing can happen, only time passes (log 4). -/
def Sys2Proof.Claims.StepRunsStepsOwed : Prop :=
  ∀ (s : State),
    (∀ o, s.advance.choose = some (.owed o) →
      step s = exec o.instr { s.advance with pending := s.advance.pending.erase o, doing := some o }) ∧
    (s.advance.choose = none → step s = .next s.advance)

/-! ## Control and status registers -/

/-- R33, R115, R117: csrr of a task-level CSR returns its content. TIME, CYCLE and BUDGETLEFT sample the counters;
FPFLAGS, MXFLAG and MX0 to MX3 are stated with no command held that could still set them. -/
def Sys2Proof.Claims.TaskCsrReads : Prop :=
  ∀ (h : Hdr) (d : GReg) (s : State), s.qual h = true →
    GivesG s (.csrr h d 0x000) d (BitVec.ofNat 64 s.time) 8 ∧
    GivesG s (.csrr h d 0x001) d (BitVec.ofNat 64 s.cycle) 8 ∧
    GivesG s (.csrr h d 0x002) d (BitVec.ofNat 64 (s.rank.key.rank % 2 ^ 20)) 8 ∧
    GivesG s (.csrr h d 0x003) d (BitVec.ofNat 64 (s.nrank % 2 ^ 21)) 8 ∧
    GivesG s (.csrr h d 0x004) d (BitVec.ofNat 64 (s.core % 2 ^ 15)) 8 ∧
    GivesG s (.csrr h d 0x005) d (BitVec.ofNat 64 (s.run.ctx % 64)) 8 ∧
    GivesG s (.csrr h d 0x006) d s.r.segseq 8 ∧
    GivesG s (.csrr h d 0x008) d s.r.fstat 8 ∧
    GivesG s (.csrr h d 0x009) d s.r.evstat 8 ∧
    (∀ i : Fin 8, GivesG s (.csrr h d (0x010 + BitVec.ofNat 12 i)) d (s.r.tcfg[i].setWidth 64) 8) ∧
    GivesG s (.csrr h d 0x028) d (if s.r.fe = true then 1 else 0) 8 ∧
    GivesG s (.csrr h d 0x030) d s.r.coinseed 8 ∧
    GivesG s (.csrr h d 0x031) d (s.r.lc[0].count.setWidth 64) 8 ∧
    GivesG s (.csrr h d 0x032) d (s.r.lc[1].count.setWidth 64) 8 ∧
    (∀ i : Fin 8, GivesG s (.csrr h d (0x040 + BitVec.ofNat 12 i)) d s.rank.wins[i] 8) ∧
    GivesG s (.csrr h d 0x050) d s.r.live 8 ∧
    (s.run.kind = .compute →
      GivesG s (.csrr h d 0x060) d (BitVec.ofNat 64 (s.run.start + s.run.budget - s.time)) 8) ∧
    (∀ c, s.supervisor = false → s.ctx s.run.ctx = some c → GivesG s (.csrr h d 0x070) d c.mctbase 8) ∧
    (s.noneHeld →
      GivesG s (.csrr h d 0x029) d (s.r.fpflags.setWidth 64) 8 ∧
      GivesG s (.csrr h d 0x024) d (s.r.mxflag.setWidth 64) 8 ∧
      (∀ i : Fin 4, GivesG s (.csrr h d (0x020 + BitVec.ofNat 12 i)) d (s.r.mx[i].setWidth 64) 8))

/-- R220, R325, R340, R352, R362, R363: csrr of a supervisor CSR in supervisor mode, TRAPNEXT aside; the registers
marked "selected" are those of the context that CTXSEL names; TRAPACT and HCLR are write-only and read zero; bit 0
of IPEND is 1 while the report queue is non-empty; HMON is that of the monitor HSEL names, an absent one reading
zero; LINKSTATn shows link n. -/
def Sys2Proof.Claims.SupervisorCsrReads : Prop :=
  ∀ (h : Hdr) (d : GReg) (s : State), s.qual h = true → s.supervisor = true →
    GivesGThat s (.csrr h d 0x800) d (fun x =>
      x.getLsbD 0 = s.run.sup.priv ∧ x.getLsbD 1 = s.run.sup.ppriv ∧ x.getLsbD 2 = s.run.sup.ie ∧
        x.getLsbD 3 = s.run.sup.pie ∧ x >>> 4 = 0) 8 ∧
    GivesG s (.csrr h d 0x801) d (s.run.sup.trapcode.setWidth 64) 8 ∧
    GivesG s (.csrr h d 0x802) d s.run.sup.trappc 8 ∧
    GivesG s (.csrr h d 0x803) d s.run.sup.trapaddr 8 ∧
    GivesG s (.csrr h d 0x804) d s.run.sup.trapmsg 8 ∧
    GivesG s (.csrr h d 0x805) d s.run.sup.trapseq 8 ∧
    GivesG s (.csrr h d 0x806) d s.run.sup.trapsrc 8 ∧
    GivesG s (.csrr h d 0x808) d 0 8 ∧
    GivesG s (.csrr h d 0x809) d s.run.sup.tvec 8 ∧
    GivesGThat s (.csrr h d 0x80A) d (fun x =>
      (x.getLsbD 0 = true ↔ s.mod.reports ≠ []) ∧ (∀ i, 1 ≤ i → i < 4 → x.getLsbD i = s.run.sup.ipend.getLsbD i) ∧
        x >>> 4 = 0) 8 ∧
    GivesG s (.csrr h d 0x810) d s.run.sup.ctxrec 8 ∧
    GivesG s (.csrr h d 0x811) d (s.run.sup.ctxsel.setWidth 64) 8 ∧
    GivesG s (.csrr h d 0x812) d (s.ctxRegs s.run.sup.ctxsel.toNat).ptbase 8 ∧
    GivesG s (.csrr h d 0x813) d (s.ctxRegs s.run.sup.ctxsel.toNat).fmtbase 8 ∧
    GivesG s (.csrr h d 0x814) d (BitVec.ofNat 64 (s.ctxRegs s.run.sup.ctxsel.toNat).budget) 8 ∧
    GivesG s (.csrr h d 0x815) d (s.ctxRegs s.run.sup.ctxsel.toNat).partition 8 ∧
    GivesG s (.csrr h d 0x816) d (s.ctxRegs s.run.sup.ctxsel.toNat).vqbase 8 ∧
    GivesG s (.csrr h d 0x817) d s.mod.preempt 8 ∧
    GivesG s (.csrr h d 0x8C0) d s.mod.fabarb 8 ∧
    GivesG s (.csrr h d 0x900) d s.mod.health.hsel 8 ∧
    GivesG s (.csrr h d 0x902) d s.mod.health.heol 8 ∧
    GivesG s (.csrr h d 0x903) d s.mod.health.hecc 8 ∧
    GivesG s (.csrr h d 0x904) d s.mod.health.hpoison 8 ∧
    GivesG s (.csrr h d 0x905) d s.mod.health.hpaddr 8 ∧
    GivesGThat s (.csrr h d 0x901) d (fun x => x >>> 48 = 0 ∧
      (∀ k (hk : k < 25), k = 5 * s.mod.health.die.toNat + s.mod.health.mon.toNat → s.mod.health.mon.toNat < 5 →
        s.mod.health.mon.toNat ≠ (if s.mod.health.die = 4 then 2 else 4) →
        x.extractLsb' 0 16 = s.mod.health.mons[k].now ∧ x.extractLsb' 16 16 = s.mod.health.mons[k].init ∧
          x.extractLsb' 32 16 = s.mod.health.mons[k].slope) ∧
      (s.mod.health.mon.toNat = (if s.mod.health.die = 4 then 2 else 4) → x = 0)) 8 ∧
    GivesGThat s (.csrr h d 0x906) d (fun x =>
      x.extractLsb' 0 8 = s.mod.health.tj ∧ x.extractLsb' 8 8 = s.mod.health.inlet ∧
        x.extractLsb' 16 8 = s.mod.health.step ∧ x.getLsbD 24 = s.mod.health.trip ∧ x >>> 25 = 0) 8 ∧
    GivesGThat s (.csrr h d 0x907) d (fun x =>
      x.extractLsb' 0 16 = s.mod.health.cap ∧ x.extractLsb' 16 16 = s.mod.health.pwr ∧ x >>> 32 = 0) 8 ∧
    GivesG s (.csrr h d 0x908) d 0 8 ∧
    GivesG s (.csrr h d 0x909) d (s.mod.health.hevt.setWidth 64) 8 ∧
    (∀ n : Fin 12, GivesGThat s (.csrr h d (0xA00 + BitVec.ofNat 12 n)) d (fun x =>
      x.extractLsb' 0 2 = s.mod.links[n].mode ∧ x.extractLsb' 2 14 = 0 ∧ x.extractLsb' 16 8 = s.mod.links[n].lanes ∧
        x.extractLsb' 24 8 = s.mod.links[n].margin ∧ x.extractLsb' 32 16 = s.mod.links[n].retry ∧
        x.extractLsb' 48 16 = s.mod.links[n].peer) 8)

/-- R33, R115, R340: an access to a number that is no CSR traps ILLEGAL, and one at task level to a number at or
above 0x800 traps PRIV, for all four CSR instructions. -/
def Sys2Proof.Claims.CsrNumbersChecked : Prop :=
  ∀ (h : Hdr) (csr : BitVec 12) (g : GReg) (i : Instr) (s : State), s.qual h = true → IsCsr i h csr g →
    (csr.toNat < 0x800 → csr.toNat ∉ taskCsrNumbers → exec i s = .next (s.trap .illegal)) ∧
    (0x800 ≤ csr.toNat → s.supervisor = false → exec i s = .next (s.trap .priv)) ∧
    (0x800 ≤ csr.toNat → s.supervisor = true → csr.toNat ∉ supCsrNumbers → exec i s = .next (s.trap .illegal))

/-- R116: a write to a CSR with no writable field at task level is ignored whole: it only retires. -/
def Sys2Proof.Claims.ReadOnlyCsrWritesIgnored : Prop :=
  ∀ (h : Hdr) (csr : BitVec 12) (g : GReg) (i : Instr) (s : State), s.qual h = true → IsCsr i h csr g →
    i ≠ .csrr h g csr → s.supervisor = false →
    csr.toNat ∈ [0x000, 0x001, 0x002, 0x003, 0x004, 0x005, 0x006] ++ List.range' 0x010 8 ++ List.range' 0x020 4 ++
      [0x060, 0x070] →
    exec i s = .next (s.retire 8) ∧ OnlyPc s (s.retire 8)

/-- R33 to R36, R116: what csrw, csrs and csrc do to the writable task-level CSRs, with the reserved bits that trap
and the values that a CSR's own rule refuses (R28, R40). A csrw to LC0 or LC1 writes only the count; writing EVSTAT
or FSTAT changes no predicate. -/
def Sys2Proof.Claims.TaskCsrWrites : Prop :=
  ∀ (h : Hdr) (a : GReg) (s : State), s.qual h = true → s.noneHeld →
    CsrWrites s h 0x008 a 0xFFFF0F 0 0xFFFFFFFFFF0000F0 s.r.fstat
      (fun x => if x.toNat % 16 ≤ 8 then some { s with r := { s.r with fstat := x } } else none) ∧
    CsrWrites s h 0x009 a 0xFFFFFFFF0FFFFFEF 0 0xF0000010 s.r.evstat
      (fun x => if x.toNat % 16 ≤ 8 then some { s with r := { s.r with evstat := x } } else none) ∧
    CsrWrites s h 0x024 a 0 0xF 0xFFFFFFFFFFFFFFF0 (s.r.mxflag.setWidth 64)
      (fun x => some { s with r := { s.r with mxflag := x.setWidth 4 } }) ∧
    CsrWrites s h 0x028 a 1 0 0xFFFFFFFFFFFFFFFE (if s.r.fe = true then 1 else 0)
      (fun x => some { s with r := { s.r with fe := x.getLsbD 0 } }) ∧
    CsrWrites s h 0x029 a 0 0x3F 0xFFFFFFFFFFFFFFC0 (s.r.fpflags.setWidth 64)
      (fun x => some { s with r := { s.r with fpflags := x.setWidth 6 } }) ∧
    CsrWrites s h 0x030 a (BitVec.allOnes 64) 0 0 s.r.coinseed
      (fun x => some { s with r := { s.r with coinseed := x } }) ∧
    CsrWrites s h 0x031 a 0xFFFFFFFF 0 0xFFFFFFFF00000000 (s.r.lc[0].count.setWidth 64)
      (fun x => some { s with r := { s.r with lc := s.r.lc.set 0 { s.r.lc[0] with count := x.setWidth 32 } } }) ∧
    CsrWrites s h 0x032 a 0xFFFFFFFF 0 0xFFFFFFFF00000000 (s.r.lc[1].count.setWidth 64)
      (fun x => some { s with r := { s.r with lc := s.r.lc.set 1 { s.r.lc[1] with count := x.setWidth 32 } } }) ∧
    CsrWrites s h 0x050 a (BitVec.allOnes 64) 0 0 s.r.live (fun x => some { s with r := { s.r with live := x } }) ∧
    (∀ n : WinNo, s.run.visit = none →
      CsrWrites s h (0x040 + n.setWidth 12) a 0xFEFFFFFFFFFFC000 0 0x0100000000003FFF s.rank.wins[n.toNat]
        (fun x => open scoped Classical in if WindowOk x then some (s.setWin n x) else none))

/-- R116, R220, R325, R329, R331, R340, R352, R363: what csrw, csrs and csrc do to the supervisor CSRs, TRAPNEXT
aside. PRIV is not writable; BUDGET takes 1 to 5,000; a register marked "selected" is that of the context CTXSEL
names; TRAPACT takes 0 to 2 and acts on the last popped report where that allows an action; PREEMPT takes a request
only while DONE is 1; FABARB, HSEL and HPWR refuse the values that their rules name; HEOL rewritten sets EVT bit 3;
HCLR zeroes the counts; IPEND, HEVT and RETRY are cleared by ones; the registers without a writable field stay. That
TRAPCODE to TRAPSEQ and CTXREC can be written, that the bits of TRAPCODE, TVEC, IPEND, CTXREC, CTXSEL, PTBASE,
FMTBASE, BUDGET, PARTITION and VQBASE which no rule names are reserved, and that a write-only field is written over
the 0 that it reads as, is the model's reading (log 11). -/
def Sys2Proof.Claims.SupervisorCsrWrites : Prop :=
  ∀ (h : Hdr) (a : GReg) (s : State), s.qual h = true → s.supervisor = true →
    (∀ st : Word, (st.getLsbD 0 = s.run.sup.priv ∧ st.getLsbD 1 = s.run.sup.ppriv ∧ st.getLsbD 2 = s.run.sup.ie ∧
        st.getLsbD 3 = s.run.sup.pie ∧ st >>> 4 = 0) →
      CsrWrites s h 0x800 a 0xE 0 0xFFFFFFFFFFFFFFF0 st (fun x => some { s with run := { s.run with
        sup := { s.run.sup with pie := x.getLsbD 3, ie := x.getLsbD 2, ppriv := x.getLsbD 1 } } })) ∧
    CsrWrites s h 0x809 a 0x000FFFFFFFFFFFFC 0 0xFFF0000000000003 s.run.sup.tvec
      (fun x => some { s with run := { s.run with sup := { s.run.sup with tvec := x } } }) ∧
    CsrWrites s h 0x810 a 0x0000FFFFFFFFF000 0 0xFFFF000000000FFF s.run.sup.ctxrec
      (fun x => some { s with run := { s.run with sup := { s.run.sup with ctxrec := x } } }) ∧
    CsrWrites s h 0x811 a 0x3F 0 0xFFFFFFFFFFFFFFC0 (s.run.sup.ctxsel.setWidth 64)
      (fun x => some { s with run := { s.run with sup := { s.run.sup with ctxsel := x.setWidth 6 } } }) ∧
    CsrWrites s h 0x812 a 0x0000FFFFFFFF8000 0 0xFFFF000000007FFF (s.ctxRegs s.run.sup.ctxsel.toNat).ptbase
      (fun x => some (s.updCtxRegs s.run.sup.ctxsel.toNat (fun c => { c with ptbase := x }))) ∧
    CsrWrites s h 0x814 a 0x1FFF 0 0xFFFFFFFFFFFFE000 (BitVec.ofNat 64 (s.ctxRegs s.run.sup.ctxsel.toNat).budget)
      (fun x => if 1 ≤ x.toNat ∧ x.toNat ≤ 5000 then
        some (s.updCtxRegs s.run.sup.ctxsel.toNat (fun c => { c with budget := x.toNat })) else none) ∧
    CsrWrites s h 0x816 a 0x000FFFFFFFFFE000 0 0xFFF0000000001FFF (s.ctxRegs s.run.sup.ctxsel.toNat).vqbase
      (fun x => some (s.updCtxRegs s.run.sup.ctxsel.toNat (fun c => { c with vqbase := x }))) ∧
    CsrWrites s h 0x801 a 0xFFFF 0 0xFFFFFFFFFFFF0000 (s.run.sup.trapcode.setWidth 64)
      (fun x => some { s with run := { s.run with sup := { s.run.sup with trapcode := x.setWidth 16 } } }) ∧
    CsrWrites s h 0x802 a (BitVec.allOnes 64) 0 0 s.run.sup.trappc
      (fun x => some { s with run := { s.run with sup := { s.run.sup with trappc := x } } }) ∧
    CsrWrites s h 0x803 a (BitVec.allOnes 64) 0 0 s.run.sup.trapaddr
      (fun x => some { s with run := { s.run with sup := { s.run.sup with trapaddr := x } } }) ∧
    CsrWrites s h 0x804 a (BitVec.allOnes 64) 0 0 s.run.sup.trapmsg
      (fun x => some { s with run := { s.run with sup := { s.run.sup with trapmsg := x } } }) ∧
    CsrWrites s h 0x805 a (BitVec.allOnes 64) 0 0 s.run.sup.trapseq
      (fun x => some { s with run := { s.run with sup := { s.run.sup with trapseq := x } } }) ∧
    CsrWrites s h 0x806 a 0 0 0xE000000000000000 s.run.sup.trapsrc (fun _ => some s) ∧
    CsrWrites s h 0x808 a 7 0 0xFFFFFFFFFFFFFFF8 0
      (fun x => if x.toNat ≤ 2 then s.actable.map (fun r => s.actOn r (if x = 0 then .retry else if x = 1 then .kill else .host))
        else none) ∧
    (∀ x : Word, (x.getLsbD 0 = true ↔ s.mod.reports ≠ []) → (∀ i, 1 ≤ i → i < 4 → x.getLsbD i = s.run.sup.ipend.getLsbD i) →
      x >>> 4 = 0 → CsrWrites s h 0x80A a 0 0xF 0xFFFFFFFFFFFFFFF0 x
        (fun y => some { s with run := { s.run with sup := { s.run.sup with ipend := y.setWidth 4 } } })) ∧
    CsrWrites s h 0x813 a 0x000FFFFFFFFFFF00 0 0xFFF00000000000FF (s.ctxRegs s.run.sup.ctxsel.toNat).fmtbase
      (fun x => some (s.updCtxRegs s.run.sup.ctxsel.toNat (fun c => { c with fmtbase := x }))) ∧
    CsrWrites s h 0x815 a 0x0000FFFFFFFFFE00 0 0xFFFF0000000001FF (s.ctxRegs s.run.sup.ctxsel.toNat).partition
      (fun x => some (s.updCtxRegs s.run.sup.ctxsel.toNat (fun c => { c with partition := x }))) ∧
    CsrWrites s h 0x817 a 0x40000000003FFFFF 0 0x3FFFFFFFFFC00000 s.mod.preempt
      (fun x => if x.extractLsb' 22 40 = 0 ∧ s.mod.preempt.getLsbD 63 = true then
        some (s.preemptWrite (x &&& 0x7FFFFFFFFFFFFFFF)) else none) ∧
    CsrWrites s h 0x8C0 a 0x00001FFFFFFFFFFF 0 0xFFFFE00000000000 s.mod.fabarb
      (fun x => if 1 ≤ (x.extractLsb' 32 13).toNat ∧ (x.extractLsb' 32 13).toNat ≤ 4096 ∧ x.extractLsb' 0 8 ≠ 0 ∧
          x.extractLsb' 8 8 ≠ 0 ∧ x.extractLsb' 16 8 ≠ 0 ∧ x.extractLsb' 24 8 ≠ 0 then
        some { s with mod := { s.mod with fabarb := x } } else none) ∧
    CsrWrites s h 0x900 a 0x77 0 0xFFFFFFFFFFFFFF88 s.mod.health.hsel
      (fun x => if (x.extractLsb' 4 3).toNat ≤ 4 ∧ (x.extractLsb' 0 3).toNat ≤ 4 then
        some (s.updHealth (fun k => { k with mon := x.extractLsb' 4 3, die := x.extractLsb' 0 3 })) else none) ∧
    CsrWrites s h 0x902 a 0xFF00FFFFFFFFFFFF 0 0x00FF000000000000 s.mod.health.heol
      (fun x => some ((s.updHealth (fun k => { k with heol := x })).healthEvent 3)) ∧
    CsrWrites s h 0x907 a 0xFFFF 0 0xFFFFFFFF00000000 s.mod.health.hpwr
      (fun x => if 1000 ≤ (x.extractLsb' 0 16).toNat ∧ (x.extractLsb' 0 16).toNat ≤ 3000 then
        some (s.updHealth (fun k => { k with cap := x.extractLsb' 0 16 })) else none) ∧
    CsrWrites s h 0x908 a 3 0 0xFFFFFFFFFFFFFFFC 0
      (fun x => some (s.updHealth (fun k => { k with
        eccDram := if x.getLsbD 0 = true then 0 else k.eccDram
        eccSram := if x.getLsbD 0 = true then 0 else k.eccSram
        hpoison := if x.getLsbD 1 = true then 0 else k.hpoison
        hpaddr := if x.getLsbD 1 = true then 0 else k.hpaddr }))) ∧
    CsrWrites s h 0x909 a 0 0xF 0xFFFFFFFFFFFFFFF0 (s.mod.health.hevt.setWidth 64)
      (fun x => some (s.updHealth (fun k => { k with hevt := x.setWidth 4 }))) ∧
    (∀ n : Fin 12, CsrWrites s h (0xA00 + BitVec.ofNat 12 n) a 0 0x0000FFFF00000000 0xFFFC s.mod.links[n].word
      (fun x => some { s with mod := { s.mod with
        links := s.mod.links.set n { s.mod.links[n] with retry := x.extractLsb' 32 16 } } })) ∧
    CsrWrites s h 0x901 a 0 0 0xFFFF000000000000 (s.mod.health.hmon s.mod.health.die.toNat s.mod.health.mon.toNat)
      (fun _ => some s) ∧
    CsrWrites s h 0x903 a 0 0 0 s.mod.health.hecc (fun _ => some s) ∧
    CsrWrites s h 0x904 a 0 0 0 s.mod.health.hpoison (fun _ => some s) ∧
    CsrWrites s h 0x905 a 0 0 0 s.mod.health.hpaddr (fun _ => some s) ∧
    CsrWrites s h 0x906 a 0 0 0xFFFFFFFFFE000000 s.mod.health.htherm (fun _ => some s)

/-- R326, R328: reading TRAPNEXT pops the oldest report into the six CSRs of the reading core and gives 1; where
reports wait for room in the full queue, the oldest of them enters it (the model's reading, log 24). With an empty
queue it gives 0 and changes nothing but its destination. -/
def Sys2Proof.Claims.TrapnextPops : Prop :=
  ∀ (h : Hdr) (d : GReg) (s : State), s.qual h = true → s.supervisor = true →
    (s.mod.reports = [] → GivesG s (.csrr h d 0x807) d 0 8) ∧
    (∀ r rest, s.mod.reports = r :: rest →
      (s.mod.waiting = [] → exec (.csrr h d 0x807) s = .next ((({ s with
        mod := { s.mod with reports := rest, last := some r }
        run := { s.run with sup := { s.run.sup with
          trapcode := r.code, trappc := r.pc, trapaddr := r.addr, trapmsg := r.msg, trapseq := r.seq,
          trapsrc := r.src } } } : State).setG d 1).retire 8)) ∧
      (∀ w ws, s.mod.waiting = w :: ws → ∃ t, exec (.csrr h d 0x807) s = .next t ∧ t.mod.reports = rest ++ [w] ∧
        t.mod.waiting = ws ∧ t.mod.last = some r ∧ t.run.sup.trapcode = r.code ∧ t.run.sup.trapsrc = r.src ∧
        t.g d = (if d = 0 then 0 else 1) ∧ (∀ j, j ≠ d → t.g j = s.g j) ∧ Retired s t 8 ∧ SameBytes s t))

/-! ## Transfer of control, loops, guards, queue registers and NOP -/

/-- R88, R118 to R120: where branches and jumps go, and the link that JAL and JALR write. JALR reads g[a] before it
writes g[d], and a write to g0 is discarded. -/
def Obligations.BranchesAndJumps : Prop :=
  ∀ (h : Hdr) (c : Cond) (d a b : GReg) (p : PReg) (neg : BitVec 1) (off : BitVec 31) (imm : BitVec 30) (s : State),
    s.qual h = true →
    (Cond.says c (s.g a) (s.g b) → Jumps s (.b h c a b off) (s.r.pc + 4 * off.signExtend 64)) ∧
    (¬Cond.says c (s.g a) (s.g b) →
      exec (.b h c a b off) s = .next (s.retire 8) ∧ OnlyPc s (s.retire 8) ∧ Retired s (s.retire 8) 8) ∧
    (s.p p = (neg == 0) → Jumps s (.bp h neg p off) (s.r.pc + 4 * off.signExtend 64)) ∧
    (s.p p ≠ (neg == 0) → exec (.bp h neg p off) s = .next (s.retire 8)) ∧
    Jumps s (.jmp h off) (s.r.pc + 4 * off.signExtend 64) ∧
    (∀ i target, (i = .jal h d imm ∧ target = s.r.pc + 4 * imm.signExtend 64) ∨
        (i = .jalr h d a imm ∧ target = s.g a + imm.signExtend 64) →
      (target.extractLsb' 0 2 ≠ 0 → exec i s = .next (s.trap .align target)) ∧
      (target.extractLsb' 0 2 = 0 → ∃ t, exec i s = .next t ∧ t.r.pc = target ∧ t.r.lc = s.r.lc ∧
        t.g d = (if d = 0 then 0 else s.r.pc + 8) ∧ (∀ j, j ≠ d → t.g j = s.g j) ∧ OnlyG s t ∧ SameBytes s t))

/-- R121: LOOP sets up its counter and enters the body, or skips it when the count is 0, reading LEN at E as a fetch
would; a count above 32 bits and an end before the start trap ILLEGAL. -/
def Sys2Proof.Claims.LoopSetsUpItsCounter : Prop :=
  ∀ (h : Hdr) (lc : BitVec 1) (src : LoopSrc) (off : BitVec 32) (s : State) (n e : Word), s.qual h = true →
    s.atLoopEnd = false →
    (∀ a, src = .reg a → n = s.g a) → (∀ x, src = .imm x → n = x.setWidth 64) → e = s.r.pc + 4 * off.signExtend 64 →
    (2 ^ 32 ≤ n.toNat → exec (.loop h lc src off) s = .next (s.trap .illegal)) ∧
    (off.toInt < 3 → exec (.loop h lc src off) s = .next (s.trap .illegal)) ∧
    (n.toNat < 2 ^ 32 → 3 ≤ off.toInt → ∀ c : Lc,
      c = { count := n.setWidth 32, reload := n.setWidth 32, s := s.r.pc + 12, e := e } →
      (n ≠ 0 → exec (.loop h lc src off) s = .next { s with
        r := { s.r with lc := s.r.lc.set lc.toNat c, pc := s.r.pc + 12 }, run := { s.run with retired := true } }) ∧
      (n = 0 →
        (∀ x, s.fetchLen e = .trap x → exec (.loop h lc src off) s = .next (s.accessTrap x s.r.pc)) ∧
        (∀ k, s.fetchLen e = .len k → exec (.loop h lc src off) s = .next { s with
          r := { s.r with lc := s.r.lc.set lc.toNat c, pc := e + BitVec.ofNat 64 k },
          run := { s.run with retired := true } })))

/-- R122: the end test with one active counter that a LOOP has set up and that ends at the PC. -/
def Sys2Proof.Claims.EndTestOfOneCounter : Prop :=
  ∀ (lc : Vector Lc 2) (i : Fin 2) (pc seq : Word),
    lc[i].isSet = true → lc[i].count ≠ 0 → lc[i].e = pc → ¬(lc[1 - i].count ≠ 0 ∧ lc[1 - i].e = pc) →
    (endTest lc pc seq).1 = lc.set i { lc[i] with count := lc[i].count - 1 } ∧
      (endTest lc pc seq).2 = if lc[i].count - 1 ≠ 0 then lc[i].s else seq

/-- R123: with both counters active and the same E, the inner counter is the one with the larger S, lc1 when the S
values are equal, and the test runs inner first. -/
def Sys2Proof.Claims.EndTestOfTwoCounters : Prop :=
  ∀ (lc : Vector Lc 2) (i o : Fin 2) (pc seq : Word),
    lc[0].isSet = true → lc[0].count ≠ 0 → lc[1].count ≠ 0 → lc[0].e = pc → lc[1].e = pc → o ≠ i →
    (lc[o].s.toNat < lc[i].s.toNat ∨ (lc[o].s = lc[i].s ∧ i = 1)) →
    (lc[i].count - 1 ≠ 0 →
      endTest lc pc seq = (lc.set i { lc[i] with count := lc[i].count - 1 }, lc[i].s)) ∧
    (lc[i].count - 1 = 0 → lc[o].count - 1 ≠ 0 →
      endTest lc pc seq = ((lc.set i { lc[i] with count := lc[i].reload }).set o { lc[o] with count := lc[o].count - 1 },
        lc[o].s)) ∧
    (lc[i].count - 1 = 0 → lc[o].count - 1 = 0 →
      endTest lc pc seq = ((lc.set i { lc[i] with count := 0 }).set o { lc[o] with count := 0 }, seq))

/-- R121, R122: with no active counter that ends at the PC, the counters stay and the PC becomes the sequential
successor; a count given to a counter that no LOOP has set up is never tested. -/
def Sys2Proof.Claims.NoEndTestElsewhere : Prop :=
  ∀ (lc : Vector Lc 2) (pc seq : Word),
    (∀ i : Fin 2, lc[i].isSet = false ∨ lc[i].count = 0 ∨ lc[i].e ≠ pc) → endTest lc pc seq = (lc, seq)

/-- R124: LOOP and the wait points must not stand at the end of an active counter: they trap ILLEGAL there, whatever
their qualifier. -/
def Sys2Proof.Claims.LoopEndCheck : Prop :=
  ∀ (i : Instr) (s : State), notAtLoopEnd i → s.atLoopEnd = true → exec i s = .next (s.trap .illegal)

/-- R127: a NOP of any of its three lengths changes nothing but the PC, and the counters that end there. -/
def Obligations.NopsOnlyMoveThePc : Prop :=
  ∀ (s : State), ∀ x ∈ [(Instr.nop, 8), (.nopX, 12), (.nopL, 16)],
    exec x.1 s = .next (s.retire x.2) ∧ Retired s (s.retire x.2) x.2 ∧ OnlyPc s (s.retire x.2) ∧
      SameBytes s (s.retire x.2)

/-- R18, R125: GSET and GKILL resolve a slot's current generation and advance it: with nothing bound to it, the slot
alone changes; a held mask command bound to it executes when the value is true and is discarded otherwise; issues
bound to it are discarded when the value is false. -/
def Sys2Proof.Claims.GuardsResolve : Prop :=
  ∀ (h : Hdr) (k : KReg) (p : PReg) (s : State) (i : Instr) (v : Bool), s.qual h = true →
    (i = .gset h k p ∧ v = s.p p) ∨ (i = .gkill h k ∧ v = false) →
    (s.issuesOf k = [] → s.noneHeld → exec i s = .next (State.retire { s with r := { s.r with
      k := s.r.k.set k.toNat { gen := s.r.k[k.toNat].gen + 1, bound := false } } } 8)) ∧
    (v = false → s.noneHeld → ∃ t, exec i s = .next t ∧ Retired s t 8 ∧ t.r.g = s.r.g ∧
      t.r.k = s.r.k.set k.toNat { gen := s.r.k[k.toNat].gen + 1, bound := false } ∧
      (∀ x ∈ s.issuesOf k, ∀ j ∈ t.mod.jobs, j.id ≠ x.job)) ∧
    (∀ e d m, s.issuesOf k = [] → s.run.vq = [e] → s.run.mq = [] → e.cmd = .mset d m →
      e.guard = some (k, s.r.k[k.toNat].gen) →
      s.run.gang = none → ∃ t, exec i s = .next t ∧ t.run.vq = [] ∧ Retired s t 8 ∧
        t.r.k = s.r.k.set k.toNat { gen := s.r.k[k.toNat].gen + 1, bound := false } ∧
        (∀ j, t.m 0 j = if v = true ∧ j = d ∧ j ≠ 0 then m else s.m 0 j) ∧ t.r.g = s.r.g ∧ t.r.p = s.r.p ∧
        t.r.v = s.r.v ∧ SameBytes s t)

/-- R16, R128: QPUT appends to a queue register and fixes its writer, QGET takes its oldest entry and fixes its
reader; a broken fix traps ILLEGAL; a full or an empty queue register with no command held is a deadlock at the
instruction itself. -/
def Sys2Proof.Claims.QueueMoves : Prop :=
  ∀ (h : Hdr) (q : QReg) (g : GReg) (s : State), s.qual h = true → s.noneHeld →
    ((∃ x, s.run.qrole[q.toNat].writer = some x ∧ x ≠ .scalar) → exec (.qput h q g) s = .next (s.trap .illegal)) ∧
    ((∃ x, s.run.qrole[q.toNat].reader = some x ∧ x ≠ .scalar) → exec (.qget h g q) s = .next (s.trap .illegal)) ∧
    ((s.run.qrole[q.toNat].writer = none ∨ s.run.qrole[q.toNat].writer = some .scalar) →
      (8 ≤ s.r.q[q.toNat].length → exec (.qput h q g) s = .next (s.trap .streamDeadlock)) ∧
      (s.r.q[q.toNat].length < 8 → exec (.qput h q g) s = .next (State.retire { s with
        r := { s.r with q := s.r.q.set q.toNat (s.r.q[q.toNat] ++ [s.g g]) }
        run := { s.run with
          qrole := s.run.qrole.set q.toNat { s.run.qrole[q.toNat] with writer := some .scalar } } } 8))) ∧
    ((s.run.qrole[q.toNat].reader = none ∨ s.run.qrole[q.toNat].reader = some .scalar) →
      (s.r.q[q.toNat] = [] → exec (.qget h g q) s = .next (s.trap .streamDeadlock)) ∧
      (∀ x rest, s.r.q[q.toNat] = x :: rest → ∃ t, exec (.qget h g q) s = .next t ∧
        t.g g = (if g = 0 then 0 else x) ∧ (∀ j, j ≠ g → t.g j = s.g j) ∧ t.r.q = s.r.q.set q.toNat rest ∧
        t.run.qrole = s.run.qrole.set q.toNat { s.run.qrole[q.toNat] with reader := some .scalar } ∧ Retired s t 8 ∧
        { t with
          r := { t.r with g := s.r.g, q := s.r.q, pc := s.r.pc, lc := s.r.lc }
          run := { t.run with qrole := s.run.qrole, retired := s.run.retired } } = s ∧ SameBytes s t))

/-- R126: an access of the scalar stream that waits for a held command, which nothing can release, is a deadlock, at
the oldest held command; while that command waits for the memory system alone, the scalar stream stalls. -/
def Sys2Proof.Claims.HeldCommandsBlockReads : Prop :=
  ∀ (h : Hdr) (d : GReg) (s : State) (e : QEntry), s.qual h = true → s.run.vq = [e] → s.run.mq = [] →
    Res.fpflags ∈ e.writes →
    (s.draining = false →
      exec (.csrr h d 0x029) s = .next (s.trapAt { trap := .streamDeadlock, addr := 0 } e.pc)) ∧
    (s.draining = true → exec (.csrr h d 0x029) s = .next s)

/-! ## Vector instructions -/

/-- R170 to R173, R187: the integer lane operations, on the bits of each enabled lane of every member. -/
def Sys2Proof.Claims.VectorIntegerResults : Prop :=
  ∀ (h : Hdr) (l : Lane) (d a b : VReg) (m : MReg) (s : State), s.openFor h →
    GivesInt2 s (.vadd h l d a b m) l d a b m (fun x y => x + y) ∧
    GivesInt2 s (.vsub h l d a b m) l d a b m (fun x y => x - y) ∧
    GivesInt2 s (.vmul h l d a b m) l d a b m (fun x y => x * y) ∧
    GivesInt2 s (.vmulh h l d a b m) l d a b m (fun x y =>
      (x.signExtend (2 * (8 * l.bytes)) * y.signExtend (2 * (8 * l.bytes))).extractLsb' (8 * l.bytes) (8 * l.bytes)) ∧
    GivesInt2 s (.vmin h l d a b m) l d a b m (fun x y => if x.toInt ≤ y.toInt then x else y) ∧
    GivesInt2 s (.vmax h l d a b m) l d a b m (fun x y => if x.toInt ≤ y.toInt then y else x) ∧
    GivesInt2 s (.vminu h l d a b m) l d a b m (fun x y => if x.toNat ≤ y.toNat then x else y) ∧
    GivesInt2 s (.vmaxu h l d a b m) l d a b m (fun x y => if x.toNat ≤ y.toNat then y else x) ∧
    GivesInt2 s (.vand h l d a b m) l d a b m (fun x y => x &&& y) ∧
    GivesInt2 s (.vor h l d a b m) l d a b m (fun x y => x ||| y) ∧
    GivesInt2 s (.vxor h l d a b m) l d a b m (fun x y => x ^^^ y) ∧
    GivesInt2 s (.vandn h l d a b m) l d a b m (fun x y => x &&& ~~~y) ∧
    GivesInt2 s (.vshl h l d a b m) l d a b m (fun x y => x <<< (y.toNat % (8 * l.bytes))) ∧
    GivesInt2 s (.vshr h l d a b m) l d a b m (fun x y => x >>> (y.toNat % (8 * l.bytes))) ∧
    GivesInt2 s (.vsar h l d a b m) l d a b m (fun x y => x.sshiftRight (y.toNat % (8 * l.bytes))) ∧
    GivesInt1 s (.vabs h l d a m) l d a m (fun x => if x.toInt < 0 then -x else x) ∧
    GivesInt1 s (.vneg h l d a m) l d a m (fun x => -x)

/-- R174: the same operations with the sign-extended imm16, cut to the lane, in place of the second vector. -/
def Sys2Proof.Claims.VectorImmediateResults : Prop :=
  ∀ (h : Hdr) (l : Lane) (d a : VReg) (imm : BitVec 16) (m : MReg) (s : State) (y : BitVec (8 * l.bytes)), s.openFor h →
    y = (imm.signExtend 64).setWidth (8 * l.bytes) →
    GivesInt1 s (.vaddi h l d a imm m) l d a m (fun x => x + y) ∧
    GivesInt1 s (.vsubi h l d a imm m) l d a m (fun x => x - y) ∧
    GivesInt1 s (.vmini h l d a imm m) l d a m (fun x => if x.toInt ≤ y.toInt then x else y) ∧
    GivesInt1 s (.vmaxi h l d a imm m) l d a m (fun x => if x.toInt ≤ y.toInt then y else x) ∧
    GivesInt1 s (.vminui h l d a imm m) l d a m (fun x => if x.toNat ≤ y.toNat then x else y) ∧
    GivesInt1 s (.vmaxui h l d a imm m) l d a m (fun x => if x.toNat ≤ y.toNat then y else x) ∧
    GivesInt1 s (.vandi h l d a imm m) l d a m (fun x => x &&& y) ∧
    GivesInt1 s (.vori h l d a imm m) l d a m (fun x => x ||| y) ∧
    GivesInt1 s (.vxori h l d a imm m) l d a m (fun x => x ^^^ y) ∧
    GivesInt1 s (.vandni h l d a imm m) l d a m (fun x => x &&& ~~~y) ∧
    GivesInt1 s (.vshli h l d a imm m) l d a m (fun x => x <<< (y.toNat % (8 * l.bytes))) ∧
    GivesInt1 s (.vshri h l d a imm m) l d a m (fun x => x >>> (y.toNat % (8 * l.bytes))) ∧
    GivesInt1 s (.vsari h l d a imm m) l d a m (fun x => x.sshiftRight (y.toNat % (8 * l.bytes)))

/-- R175, R176, R45: the floating lane operations: each enabled lane takes the operation's result in the lane's own
format, rounded once, and its flags accumulate in FPFLAGS when FE is 1. -/
def Obligations.VectorFloatingResults : Prop :=
  ∀ (h : Hdr) (t : FTy) (rnd : Rnd) (d a b c : VReg) (m : MReg) (s : State) (f : FFmt) (w : Nat)
    (x : VReg → Nat → Nat → Nat), s.openFor h → f = FTy.fmt t → w = FTy.bytes t → (x = fun r j k => lane w k (s.v j r)) →
    GivesLanesF s s (.vfadd h t rnd d a b m) d m w (fun j k => fAdd f rnd (f.decode (x a j k)) (f.decode (x b j k))) ∧
    GivesLanesF s s (.vfsub h t rnd d a b m) d m w
      (fun j k => fAdd f rnd (f.decode (x a j k)) (f.decode (x b j k)).negate) ∧
    GivesLanesF s s (.vfmul h t rnd d a b m) d m w (fun j k => fMul f rnd (f.decode (x a j k)) (f.decode (x b j k))) ∧
    GivesLanesF s s (.vfdiv h t rnd d a b m) d m w (fun j k => fDiv f rnd (f.decode (x a j k)) (f.decode (x b j k))) ∧
    GivesLanesF s s (.vfmin h t rnd d a b m) d m w (fun j k => fMinMax f true (x a j k) (x b j k)) ∧
    GivesLanesF s s (.vfmax h t rnd d a b m) d m w (fun j k => fMinMax f false (x a j k) (x b j k)) ∧
    GivesLanesF s s (.vfsqrt h t rnd d a m) d m w (fun j k => fSqrt f rnd (f.decode (x a j k))) ∧
    GivesLanesF s s (.vfabs h t rnd d a m) d m w (fun j k =>
      { bits := if f.decode (x a j k) = .nan then f.nan else x a j k % 2 ^ (f.eb + f.mb), flags := 0 }) ∧
    GivesLanesF s s (.vfneg h t rnd d a m) d m w (fun j k =>
      { bits := if f.decode (x a j k) = .nan then f.nan else x a j k ^^^ 2 ^ (f.eb + f.mb), flags := 0 }) ∧
    GivesLanesF s s (.vfex2 h t rnd d a m) d m w (fun j k => fEx2 f rnd (f.decode (x a j k))) ∧
    GivesLanesF s s (.vflg2 h t rnd d a m) d m w (fun j k => fLg2 f rnd (f.decode (x a j k))) ∧
    GivesLanesF s s (.vfma h t rnd d a b c m) d m w
      (fun j k => fFma f rnd false false (f.decode (x a j k)) (f.decode (x b j k)) (f.decode (x c j k))) ∧
    GivesLanesF s s (.vfms h t rnd d a b c m) d m w
      (fun j k => fFma f rnd false true (f.decode (x a j k)) (f.decode (x b j k)) (f.decode (x c j k))) ∧
    GivesLanesF s s (.vfnma h t rnd d a b c m) d m w
      (fun j k => fFma f rnd true false (f.decode (x a j k)) (f.decode (x b j k)) (f.decode (x c j k)))

/-- R41 to R45, R175, R176: the special cases of the floating operations, in every format and rounding mode: NaN
operands give the canonical NaN with no flag, but an invalid product sets NV even when the addend is a NaN; the
invalid operations give NaN and NV; a division by zero and log₂ of zero set DZ. -/
def Sys2Proof.Claims.SpecialFloatingCases : Prop :=
  ∀ (f : FFmt) (r : Rnd) (x : FVal) (a b n p : Bool) (m : Nat) (e : Int),
    fAdd f r .nan x = { bits := f.nan, flags := 0 } ∧ fAdd f r x .nan = { bits := f.nan, flags := 0 } ∧
    fMul f r .nan x = { bits := f.nan, flags := 0 } ∧ fMul f r x .nan = { bits := f.nan, flags := 0 } ∧
    fDiv f r .nan x = { bits := f.nan, flags := 0 } ∧ fDiv f r x .nan = { bits := f.nan, flags := 0 } ∧
    fSqrt f r .nan = { bits := f.nan, flags := 0 } ∧ fEx2 f r .nan = { bits := f.nan, flags := 0 } ∧
    fLg2 f r .nan = { bits := f.nan, flags := 0 } ∧
    fAdd f r (.inf false) (.inf true) = { bits := f.nan, flags := flagNV } ∧
    fAdd f r (.inf true) (.inf false) = { bits := f.nan, flags := flagNV } ∧
    fMul f r (.inf a) (.num b 0 e) = { bits := f.nan, flags := flagNV } ∧
    fMul f r (.num b 0 e) (.inf a) = { bits := f.nan, flags := flagNV } ∧
    fFma f r n p (.inf a) (.num b 0 e) x = { bits := f.nan, flags := flagNV } ∧
    fFma f r n p (.num b 0 e) (.inf a) x = { bits := f.nan, flags := flagNV } ∧
    fDiv f r (.inf a) (.inf b) = { bits := f.nan, flags := flagNV } ∧
    fDiv f r (.num a 0 e) (.num b 0 e) = { bits := f.nan, flags := flagNV } ∧
    (m ≠ 0 → fDiv f r (.num a m e) (.num b 0 e) = { bits := f.inf (xor a b), flags := flagDZ } ∧
      fSqrt f r (.num true m e) = { bits := f.nan, flags := flagNV } ∧
      fLg2 f r (.num true m e) = { bits := f.nan, flags := flagNV }) ∧
    fSqrt f r (.num true 0 e) = { bits := f.zero true, flags := 0 } ∧
    fSqrt f r (.inf true) = { bits := f.nan, flags := flagNV } ∧
    fLg2 f r (.num a 0 e) = { bits := f.inf true, flags := flagDZ } ∧
    fLg2 f r (.inf false) = { bits := f.inf false, flags := 0 } ∧
    fLg2 f r (.num false 1 0) = { bits := f.zero false, flags := 0 } ∧
    fEx2 f r (.inf true) = { bits := f.zero false, flags := 0 } ∧ fEx2 f r (.inf false) = { bits := f.inf false, flags := 0 }

/-- R44, R45: a value that the format represents is not changed by rounding, in any mode, and sets no flag. -/
def Sys2Proof.Claims.RepresentableValuesRoundToThemselves : Prop :=
  ∀ (f : FFmt) (r : Rnd) (x : Nat), f ∈ [fmtE4M3, fmtE5M2, fmtBF16, fmtF16, fmtF32] → x < 2 ^ f.width →
    f.decode x ≠ .nan → f.ofVal r (f.decode x) = { bits := x, flags := 0 }

/-- R177: VCMP sets all bits of an enabled lane whose condition holds, and clears the others. -/
def Sys2Proof.Claims.VectorCompares : Prop :=
  ∀ (h : Hdr) (c : Cond) (t : VTy) (d : MReg) (a b : VReg) (m : MReg) (s : State), s.openFor h →
    (VTy.fmt t = none → GivesMask s (.vcmp h c t d a b m) d (fun j i =>
      (s.m j m).getLsbD ((VTy.bytes t) * (i / (VTy.bytes t))) = true ∧
        laneSays c (BitVec.ofNat (8 * (VTy.bytes t)) (lane (VTy.bytes t) (i / (VTy.bytes t)) (s.v j a)))
          (BitVec.ofNat (8 * (VTy.bytes t)) (lane (VTy.bytes t) (i / (VTy.bytes t)) (s.v j b))))) ∧
    (∀ f, VTy.fmt t = some f → c ≠ .ltu → c ≠ .geu → GivesMask s (.vcmp h c t d a b m) d (fun j i =>
      (s.m j m).getLsbD ((VTy.bytes t) * (i / (VTy.bytes t))) = true ∧
        floatSays c (f.decode (lane (VTy.bytes t) (i / (VTy.bytes t)) (s.v j a))) (f.decode (lane (VTy.bytes t) (i / (VTy.bytes t)) (s.v j b)))))

/-- R179: the mask operations. -/
def Sys2Proof.Claims.MaskOperations : Prop :=
  ∀ (h : Hdr) (d a b : MReg) (imm : BitVec 16) (s : State), s.openFor h →
    GivesMask s (.mand h d a b) d (fun j i => (s.m j a).getLsbD i = true ∧ (s.m j b).getLsbD i = true) ∧
    GivesMask s (.mor h d a b) d (fun j i => (s.m j a).getLsbD i = true ∨ (s.m j b).getLsbD i = true) ∧
    GivesMask s (.mxor h d a b) d (fun j i => (s.m j a).getLsbD i ≠ (s.m j b).getLsbD i) ∧
    GivesMask s (.mnot h d a) d (fun j i => (s.m j a).getLsbD i = false) ∧
    GivesMask s (.mset h d imm) d (fun _ i => imm.getLsbD i = true)

/-- R178, R180, R188: select and lane moves. VSEL, VMOV and VMOVG select byte by byte; VEXT writes a g register; a
scalar operand is read once, and a queue register gives its oldest entry. -/
def Sys2Proof.Claims.LaneMoves : Prop :=
  ∀ (h : Hdr) (l : Lane) (d a b : VReg) (gd : GReg) (ix : BitVec 4) (m : MReg) (s u : State) (src : ScalarSrc) (x : Word),
    s.openFor h →
    GivesLanes s s (.vsel h d a b m) d 0 1 8 (fun j k =>
      if (s.m j m).getLsbD k = true then lane 1 k (s.v j a) else lane 1 k (s.v j b)) ∧
    GivesLanes s s (.vperm h l d a b m) d m l.bytes 8 (fun j k =>
      lane l.bytes (lane l.bytes k (s.v j b) % (16 / l.bytes)) (s.v j a)) ∧
    GivesLanes s s (.vmov h d a m) d m 1 8 (fun j k => lane 1 k (s.v j a)) ∧
    GivesG s (.vext h l gd a ix) gd (BitVec.ofNat 64 (lane l.bytes ix.toNat (s.v 0 a))) 8 ∧
    (s.run.gang ≠ none → GivesLanes s s (.vxg h d a ix m) d m 1 8 (fun j k =>
      lane 1 k (s.v (((j : Int) + ix.toInt + 4) % 4).toNat a))) ∧
    (s.run.gang = none → exec (.vxg h d a ix m) s = .next (s.trap .illegal)) ∧
    (ReadsSource s .vector src x u →
      GivesLanes s u (.vsplat h l d src m) d m l.bytes 8 (fun _ _ => x.toNat) ∧
      GivesLanes s u (.vins h l d src ix m) d m l.bytes 8 (fun j k =>
        if k = ix.toNat then x.toNat else lane l.bytes k (s.v j d))) ∧
    (∀ g₁ g₂, GivesLanes s s (.vmovg h d (.g g₁ g₂) m) d m 1 8 (fun _ k =>
      ((if k < 8 then s.g g₁ else s.g g₂).extractLsb' (8 * (k % 8)) 8).toNat)) ∧
    (∀ q₁ q₂ y v, ReadsSource s .vector (.q q₁) x u → ReadsSource u .vector (.q q₂) y v →
      GivesLanes s v (.vmovg h d (.q q₁ q₂) m) d m 1 8 (fun _ k =>
        ((if k < 8 then x else y).extractLsb' (8 * (k % 8)) 8).toNat))

/-- R185: pairwise sums in the lower half of the result, +0 above; floating sums are rounded once. -/
def Sys2Proof.Claims.PairwiseAdd : Prop :=
  ∀ (h : Hdr) (t : VTy) (r : Rnd) (d a : VReg) (m : MReg) (s : State), s.openFor h →
    (VTy.fmt t = none → GivesLanes s s (.vhadd h t r d a m) d m (VTy.bytes t) 8 (fun j k =>
      if 2 * k < 16 / (VTy.bytes t) then lane (VTy.bytes t) (2 * k) (s.v j a) + lane (VTy.bytes t) (2 * k + 1) (s.v j a) else 0)) ∧
    (∀ f, VTy.fmt t = some f → GivesLanesF s s (.vhadd h t r d a m) d m (VTy.bytes t) (fun j k =>
      if 2 * k < 16 / (VTy.bytes t) then
        fAdd f r (f.decode (lane (VTy.bytes t) (2 * k) (s.v j a))) (f.decode (lane (VTy.bytes t) (2 * k + 1) (s.v j a)))
      else { bits := 0, flags := 0 }))

/-- R46, R47, R181, R182: VCVT without amax: element i of the source part goes to element i of the destination part,
converted directly or through the FP32 product with the scale; the other bytes of v[d] are unchanged. -/
def Sys2Proof.Claims.VectorConversions : Prop :=
  ∀ (h : Hdr) (src dst : CvtTy) (part : BitVec 2) (r : Rnd) (inf : BitVec 1) (d a : VReg) (sc : ScalarSrc) (mx : MxReg)
    (m : MReg) (s u : State) (x : Word) (n sb db : Nat) (res : Nat → Nat → FRes), s.openFor h →
    ReadsSource s .vector sc x u → n = 16 / Nat.max src.bytes dst.bytes →
    sb = (if src.bytes < dst.bytes then part.toNat * n else 0) → db = (if dst.bytes < src.bytes then part.toNat * n else 0) →
    (res = fun j i =>
      if sc = .g 0 then convert (cvtValue src (lane src.bytes (sb + i) (s.v j a))) dst r (inf == 1)
      else convertScaled (cvtValue src (lane src.bytes (sb + i) (s.v j a))) (x.toNat % 2 ^ 32) dst r (inf == 1)) →
    ∃ t, exec (.vcvt h src dst part r inf d a sc 0 mx m) s = .next t ∧
      (∀ j ∈ s.members, ∀ k < 16 / dst.bytes, lane dst.bytes k (t.v j d) =
        if db ≤ k ∧ k < db + n ∧ (s.m j m).getLsbD (dst.bytes * k) = true then (res j (k - db)).bits % 2 ^ (8 * dst.bytes)
        else lane dst.bytes k (s.v j d)) ∧
      (∀ j ∈ s.members, ∀ y, y ≠ d → t.v j y = s.v j y) ∧
      (∀ b, t.r.fpflags.getLsbD b = true ↔ s.r.fpflags.getLsbD b = true ∨ (s.r.fe = true ∧ ∃ j ∈ s.members, ∃ i < n,
        (s.m j m).getLsbD (dst.bytes * (db + i)) = true ∧ (res j i).flags.getLsbD b = true)) ∧
      Retired u t 8 ∧ OnlyV u t ∧ SameBytes u t

/-- R52, R182: with AE = 1, VCVT, be it widening, narrowing or scaled, also observes the enabled source elements,
unscaled and in ascending order, member after member: mx[n] and its NaN flag take what the observations leave, the
other mx registers nothing, and v[d] and FPFLAGS what they take with AE = 0. -/
def Sys2Proof.Claims.ConversionsObserveAmax : Prop :=
  ∀ (h : Hdr) (src dst : CvtTy) (part : BitVec 2) (r : Rnd) (inf : BitVec 1) (d a : VReg) (sc : ScalarSrc) (mx : MxReg)
    (m : MReg) (s u : State) (x : Word) (n sb db : Nat) (res : Nat → Nat → FRes) (els : Nat → List Nat)
    (o : BitVec 32 × Bool), s.openFor h →
    ReadsSource s .vector sc x u → n = 16 / Nat.max src.bytes dst.bytes →
    sb = (if src.bytes < dst.bytes then part.toNat * n else 0) → db = (if dst.bytes < src.bytes then part.toNat * n else 0) →
    (res = fun j i =>
      if sc = .g 0 then convert (cvtValue src (lane src.bytes (sb + i) (s.v j a))) dst r (inf == 1)
      else convertScaled (cvtValue src (lane src.bytes (sb + i) (s.v j a))) (x.toNat % 2 ^ 32) dst r (inf == 1)) →
    (els = fun j => (List.range n).filter (fun i => (s.m j m).getLsbD (dst.bytes * (db + i)))) →
    o = s.members.foldl (fun acc j =>
      let y := (els j).foldl (fun y i => amaxObserve (cvtValue src (lane src.bytes (sb + i) (s.v j a))) y.1 y.2)
        (acc.1.toNat, acc.2)
      (BitVec.ofNat 32 y.1, y.2)) (s.r.mx[mx.toNat], s.r.mxflag.getLsbD mx.toNat) →
    ∃ t, exec (.vcvt h src dst part r inf d a sc 1 mx m) s = .next t ∧
      t.r.mx[mx.toNat] = o.1 ∧ t.r.mxflag.getLsbD mx.toNat = o.2 ∧
      (∀ k : MxReg, k ≠ mx → t.r.mx[k.toNat] = s.r.mx[k.toNat] ∧ t.r.mxflag.getLsbD k.toNat = s.r.mxflag.getLsbD k.toNat) ∧
      (∀ j ∈ s.members, ∀ k < 16 / dst.bytes, lane dst.bytes k (t.v j d) =
        if db ≤ k ∧ k < db + n ∧ (s.m j m).getLsbD (dst.bytes * k) = true then (res j (k - db)).bits % 2 ^ (8 * dst.bytes)
        else lane dst.bytes k (s.v j d)) ∧
      (∀ j ∈ s.members, ∀ y, y ≠ d → t.v j y = s.v j y) ∧
      (∀ b, t.r.fpflags.getLsbD b = true ↔ s.r.fpflags.getLsbD b = true ∨ (s.r.fe = true ∧ ∃ j ∈ s.members, ∃ i ∈ els j,
        (res j i).flags.getLsbD b = true)) ∧
      t.r.g = s.r.g ∧ t.r.p = s.r.p ∧ t.r.m = s.r.m ∧ Retired u t 8 ∧ SameBytes s t

/-- R26, R183, R187: VLDS and VSTS move the enabled bytes of every member between a typed buffer and vector
registers. -/
def Obligations.VectorBufferAccesses : Prop :=
  ∀ (h : Hdr) (buf : Buf) (d : VReg) (a : GReg) (off : BitVec 32) (m : MReg) (s : State) (ea : Word), s.openFor h →
    s.clean → ea = s.g a + off.signExtend 64 →
    (s.vtypedTrap buf ea m = none →
      GivesLanes s s (.vlds h buf d a off m) d m 1 12 (fun j k => ((s.rank.buf buf).get (ea + BitVec.ofNat 64 (16 * j + k)).toNat).toNat) ∧
      ∃ t, exec (.vsts h buf d a off m) s = .next t ∧
        (∀ j ∈ s.members, ∀ k < 16, (s.m j m).getLsbD k = true →
          ((t.rank.buf buf).get (ea + BitVec.ofNat 64 (16 * j + k)).toNat).toNat = lane 1 k (s.v j d)) ∧
        (∀ o, (∀ j ∈ s.members, ∀ k < 16, (s.m j m).getLsbD k = true → o ≠ (ea + BitVec.ofNat 64 (16 * j + k)).toNat) →
          (t.rank.buf buf).get o = (s.rank.buf buf).get o) ∧
        (∀ b o, b ≠ buf → (t.rank.buf b).get o = (s.rank.buf b).get o) ∧
        (∀ o, t.mem.get o = s.mem.get o) ∧ (∀ o, t.sram.get o = s.sram.get o) ∧ t.r.g = s.r.g ∧ Retired s t 12 ∧
        OnlyGAndBytes s t) ∧
    (∀ x, s.vtypedTrap buf ea m = some x →
      exec (.vlds h buf d a off m) s = .next (s.accessTrap x s.r.pc) ∧
      exec (.vsts h buf d a off m) s = .next (s.accessTrap x s.r.pc)) ∧
    (ea.toNat % 16 ≠ 0 → ∀ j ∈ s.members, (∃ k < 16, (s.m j m).getLsbD k = true) →
      (∀ i ∈ s.members, i < j → ∀ k < 16, (s.m i m).getLsbD k = false) →
      s.vtypedTrap buf ea m = some { trap := .align, addr := typedAddr buf (ea + BitVec.ofNat 64 (16 * j)) }) ∧
    ((∀ j ∈ s.members, ∀ k < 16, (s.m j m).getLsbD k = false) → s.vtypedTrap buf ea m = none)

/-- R130, R183, R187: VLD and VST move the enabled bytes of every member between global memory and vector registers;
the pages are touched when the command executes (R337). VLD is stated with nothing on its way, VST where its bytes
land at once; wherever they land, VST retires; a misaligned access traps at the address of the first member that
accesses anything. -/
def Sys2Proof.Claims.VectorGlobalAccesses : Prop :=
  ∀ (h : Hdr) (d : VReg) (a : GReg) (off : BitVec 32) (m : MReg) (s : State) (ea : Word), s.openFor h → s.clean →
    ea = s.g a + off.signExtend 64 →
    (∀ u, u = s.touchCmd (.vload d (s.vglobalAccs ea m)) → s.vglobalTrap ea m needR = none → s.run.flight = [] → s.linked →
      GivesLanes s u (.vld h d a off m) d m 1 12 (fun j k => (u.byteAt (s.locOf (ea + BitVec.ofNat 64 (16 * j + k)).toNat)).toNat)) ∧
    (∀ u xs, u = s.touchCmd (.vstore d (s.vglobalAccs ea m)) → s.vglobalTrap ea m needW = none →
      xs = (s.enabledBytes m).map (fun x => (s.locOf (ea + BitVec.ofNat 64 (16 * x.1 + x.2)).toNat, vbyte (s.v x.1 d) x.2)) →
      u.plainPlaces false (xs.map (fun x => x.1)) → ∃ t, exec (.vst h d a off m) s = .next t ∧ Landed u t xs ∧
        t.r.g = s.r.g ∧ Retired s t 12 ∧ OnlyGAndBytes u t) ∧
    (s.vglobalTrap ea m needW = none → ∃ t, exec (.vst h d a off m) s = .next t ∧ t.r.g = s.r.g ∧ t.r.v = s.r.v ∧
      Retired s t 12) ∧
    (∀ x, (s.vglobalTrap ea m needR = some x → exec (.vld h d a off m) s = .next (s.accessTrap x s.r.pc)) ∧
      (s.vglobalTrap ea m needW = some x → exec (.vst h d a off m) s = .next (s.accessTrap x s.r.pc))) ∧
    (ea.toNat % 16 ≠ 0 → ∀ j ∈ s.members, (∃ k < 16, (s.m j m).getLsbD k = true) →
      (∀ i ∈ s.members, i < j → ∀ k < 16, (s.m i m).getLsbD k = false) → ∀ need,
      s.vglobalTrap ea m need = some { trap := .align, addr := ea + BitVec.ofNat 64 (16 * j) }) ∧
    ((∀ j ∈ s.members, ∀ k < 16, (s.m j m).getLsbD k = false) → ∀ need, s.vglobalTrap ea m need = none)

/-- R184, R187: VGATH zero-extends an element at each enabled offset into a 32-bit lane, and VSCAT stores the low
bytes of each enabled lane, its bytes stated where they land at once at different places, though it retires wherever
they land; a global gather is stated with nothing on its way. -/
def Sys2Proof.Claims.GatherAndScatter : Prop :=
  ∀ (h : Hdr) (sp : Space) (l : Lane) (d : VReg) (a : GReg) (b : VReg) (off : BitVec 32) (m : MReg) (s : State)
    (ea : Nat → Nat → Word) (places : Nat → Nat → List Loc), s.openFor h → s.clean → l ≠ .d →
    (ea = fun j i => s.g a + off.signExtend 64 +
      (BitVec.ofNat 32 (lane 4 i (s.v j b))).signExtend 64 * BitVec.ofNat 64 l.bytes) →
    (places = fun j i => match spaceBuf sp with
      | none => (List.range l.bytes).map (fun k => s.locOf (ea j i + BitVec.ofNat 64 k).toNat)
      | some buf => (List.range l.bytes).map (fun k => .buf buf (ea j i + BitVec.ofNat 64 k).toNat)) →
    (∀ u, s.gsTrap sp (s.g a + off.signExtend 64) b l.bytes m needR = none →
      u = s.touchCmd (.vgath d (s.gsAccs sp (s.g a + off.signExtend 64) b l.bytes m) (s.gsZeros l.bytes m)) →
      (spaceBuf sp = none → s.run.flight = [] ∧ s.linked) →
      GivesLanes s u (.vgath h sp l d a b off m) d m 4 12 (fun j i => leNat ((places j i).map u.byteAt))) ∧
    (∀ u xs, s.gsTrap sp (s.g a + off.signExtend 64) b l.bytes m needW = none →
      u = s.touchCmd (.vscat d (s.gsAccs sp (s.g a + off.signExtend 64) b l.bytes m)) →
      xs = (s.enabledElems m).flatMap (fun x =>
        (places x.1 x.2).zip ((List.range l.bytes).map (fun k => vbyte (s.v x.1 d) (4 * x.2 + k)))) →
      u.plainPlaces (decide (1 < (s.enabledElems m).length)) (xs.map (fun x => x.1)) → ∃ t, exec (.vscat h sp l a b d off m) s = .next t ∧ Landed u t xs ∧
        t.r.g = s.r.g ∧ Retired s t 12 ∧ OnlyGAndBytes u t) ∧
    (s.gsTrap sp (s.g a + off.signExtend 64) b l.bytes m needW = none → ∃ t, exec (.vscat h sp l a b d off m) s = .next t ∧
      t.r.g = s.r.g ∧ t.r.v = s.r.v ∧ Retired s t 12) ∧
    (∀ x, (s.gsTrap sp (s.g a + off.signExtend 64) b l.bytes m needR = some x →
        exec (.vgath h sp l d a b off m) s = .next (s.accessTrap x s.r.pc)) ∧
      (s.gsTrap sp (s.g a + off.signExtend 64) b l.bytes m needW = some x →
        exec (.vscat h sp l a b d off m) s = .next (s.accessTrap x s.r.pc)))

/-- R186: GANG.ON couples the quad with members 1 to 3 zero, as the first instruction of a segment of a task that
has the gang flag; it waits for the quad's other cores, which then start no segment, and traps ILLEGAL otherwise.
GANG.OFF ends the ganging; on an unganged quad it does nothing. -/
def Obligations.Ganging : Prop :=
  ∀ (h : Hdr) (s : State), s.qual h = true → s.noneHeld →
    (∀ t, s.cur = some t → t.tcb.gang = true → t.tcb.handler = false → s.run.gang = none → s.run.retired = false →
      ((∀ c ∈ quadOthers s.core, s.busyCore c = false) →
        ∃ ms : Vector Member 3, exec (.gangOn h) s = .next (State.retire
            { s with run := { s.run with gang := some ms, gangWait := false } } 8) ∧
          ∀ i : Fin 3, (∀ k (hk : k < 32), ms[i].v[k] = 0) ∧ ∀ k (hk : k < 8), ms[i].m[k] = 0) ∧
      (∀ c ∈ quadOthers s.core, s.busyCore c = true → exec (.gangOn h) s = .next
        { s with run := { s.run with gangWait := true } })) ∧
    ((∀ t, s.cur = some t → t.tcb.gang = false) ∨ s.curHandler = true ∨ s.run.gang ≠ none ∨ s.run.retired = true →
      exec (.gangOn h) s = .next (s.trap .illegal)) ∧
    (s.run.gang = none → exec (.gangOff h) s = .next (s.retire 8)) ∧
    (s.run.gang ≠ none → ∃ t, exec (.gangOff h) s = .next t ∧ t.run.gang = none ∧ t.r.v = s.r.v ∧ t.r.m = s.r.m ∧
      t.r.g = s.r.g ∧ t.r.p = s.r.p ∧ Retired s t 8 ∧ SameBytes s t)

/-! ## Scalar memory, atomics, fences, windows and remote access -/

/-- R26, R138: LDS extends the bytes of a typed buffer and STS stores the low bytes of its register, little-endian;
a misaligned access traps ALIGN and one beyond the buffer PAGE_PERM, with the typed-buffer address. -/
def Obligations.BufferLoadsAndStores : Prop :=
  ∀ (h : Hdr) (buf : Buf) (wd : LdW) (ws : StW) (d a : GReg) (off : BitVec 32) (s : State) (ea : Word),
    s.qual h = true → s.noneHeld → s.clean → s.run.visit = none → ea = s.g a + off.signExtend 64 →
    (ea.toNat % wd.size = 0 → ea.toNat + wd.size ≤ buf.size →
      GivesGThat s (.lds h buf wd d a off) d (fun x =>
        Extends x wd ((List.range wd.size).map (fun i => (s.rank.buf buf).get (ea.toNat + i)))) 12) ∧
    (ea.toNat % wd.size ≠ 0 → exec (.lds h buf wd d a off) s = .next (s.trap .align (typedAddr buf ea))) ∧
    (ea.toNat % wd.size = 0 → buf.size < ea.toNat + wd.size →
      exec (.lds h buf wd d a off) s = .next (s.trap .pagePerm (typedAddr buf ea))) ∧
    (ea.toNat % ws.size = 0 → ea.toNat + ws.size ≤ buf.size →
      ∃ t, exec (.sts h buf ws d a off) s = .next t ∧
        Landed s t ((List.range ws.size).map (fun i => (.buf buf (ea.toNat + i), (s.g d).extractLsb' (8 * i) 8))) ∧
        t.r.g = s.r.g ∧ Retired s t 12 ∧ OnlyGAndBytes s t) ∧
    (ea.toNat % ws.size ≠ 0 → exec (.sts h buf ws d a off) s = .next (s.trap .align (typedAddr buf ea))) ∧
    (ea.toNat % ws.size = 0 → buf.size < ea.toNat + ws.size →
      exec (.sts h buf ws d a off) s = .next (s.trap .pagePerm (typedAddr buf ea)))

/-- R129, R132, R133: aligned LD and LD.AQ of places inside the module with no access on its way extend the bytes
the task sees there, after touching the page (R337); LD.AQ needs an address off UN pages (R131, R134). -/
def Sys2Proof.Claims.GlobalLoads : Prop :=
  ∀ (h : Hdr) (wd : LdW) (d a : GReg) (off : BitVec 32) (s u : State) (ea : Word) (i : Instr),
    s.qual h = true → s.noneHeld → s.clean → s.run.flight = [] → ea = s.g a + off.signExtend 64 →
    s.globalTrap ea wd.size needR = none → u = s.touchAll ea.toNat wd.size false →
    (∀ l ∈ u.locs ea.toNat wd.size, l.far = false) → u.locs ea.toNat wd.size = s.locs ea.toNat wd.size →
    ea.toNat % wd.size = 0 → (i = .ld h wd d a off ∨ (i = .ldAq h wd d a off ∧ s.onUn ea.toNat wd.size = false)) →
    ∃ x t, Extends x wd ((u.locs ea.toNat wd.size).map u.byteAt) ∧ exec i s = .next t ∧
      t.g d = (if d = 0 then 0 else x) ∧ (∀ j, j ≠ d → t.g j = s.g j) ∧ Retired s t 12 ∧ OnlyG u t ∧ SameBytes u t

/-- R129, R131: an LD of a place outside the module, or one that is not naturally aligned, which is performed byte
by byte, retires at once, and its data are on their way: no register changes yet, and the register that it will
write is awaited. -/
def Sys2Proof.Claims.FarLoadsArePosted : Prop :=
  ∀ (h : Hdr) (wd : LdW) (d a : GReg) (off : BitVec 32) (s : State) (ea : Word),
    s.qual h = true → s.noneHeld → s.clean → s.run.comb = [] → d ≠ 0 → ea = s.g a + off.signExtend 64 →
    s.globalTrap ea wd.size needR = none → physOf (s.locs ea.toNat wd.size) ≠ none →
    (∀ l ∈ s.locs ea.toNat wd.size, l.far = true) ∨ ea.toNat % wd.size ≠ 0 →
    ∃ t, exec (.ld h wd d a off) s = .next t ∧ t.r.g = s.r.g ∧ t.r.p = s.r.p ∧ d ∈ t.awaited ∧ Retired s t 12

/-- R132, R31, R134: ST and ST.RL of places that are stored to at once: the bytes land, little-endian, and nothing
else changes; ST.RL waits until what the segment did before has been performed, and here there is nothing to wait
for. -/
def Sys2Proof.Claims.GlobalStores : Prop :=
  ∀ (h : Hdr) (wd : StW) (b a : GReg) (off : BitVec 32) (s u : State) (ea : Word) (i : Instr),
    s.qual h = true → s.noneHeld → ea = s.g a + off.signExtend 64 →
    s.globalTrap ea wd.size needW = none → u = s.touchAll ea.toNat wd.size true →
    u.locs ea.toNat wd.size = s.locs ea.toNat wd.size → u.plainPlaces (ea.toNat % wd.size != 0) (u.locs ea.toNat wd.size) →
    (i = .st h wd b a off ∨ (i = .stRl h wd b a off ∧ ea.toNat % wd.size = 0 ∧ s.onUn ea.toNat wd.size = false ∧
      s.run.comb = [] ∧ s.run.flight = [] ∧ s.run.out = [] ∧ s.jobPending 0x33 = false)) →
    ∃ t, exec i s = .next t ∧
      Landed u t ((u.locs ea.toNat wd.size).zip ((List.range wd.size).map (fun k => (s.g b).extractLsb' (8 * k) 8))) ∧
      t.r.g = s.r.g ∧ Retired s t 12 ∧ OnlyGAndBytes u t

/-- R133: after a store of any class (performed at once, posted, or gathered in the combining buffer), the task
itself reads back the bytes it stored. -/
def Sys2Proof.Claims.OwnStoresAreSeen : Prop :=
  ∀ (h : Hdr) (wd : StW) (b a : GReg) (off : BitVec 32) (s u : State) (ea : Word),
    s.qual h = true → s.noneHeld → s.run.comb = [] → s.run.flight = [] → ea = s.g a + off.signExtend 64 →
    s.globalTrap ea wd.size needW = none → u = s.touchAll ea.toNat wd.size true →
    u.locs ea.toNat wd.size = s.locs ea.toNat wd.size → ((u.locs ea.toNat wd.size).map Loc.place).Nodup →
    ∃ t, exec (.st h wd b a off) s = .next t ∧ Retired s t 12 ∧
      (u.locs ea.toNat wd.size).map t.byteAt = (List.range wd.size).map (fun k => (s.g b).extractLsb' (8 * k) 8)

/-- R30, R130, R131, R134, R366: the checks of scalar global accesses and the trap of the first that fails. The
aligned forms check ALIGN first and KIND of a UN page last. An address above 52 bits traps PAGE_NP with that
address. -/
def Sys2Proof.Claims.GlobalAccessTraps : Prop :=
  ∀ (h : Hdr) (wd : LdW) (ws : StW) (d a : GReg) (off : BitVec 32) (s : State) (ea : Word),
    s.qual h = true → ea = s.g a + off.signExtend 64 →
    (∀ x, s.globalTrap ea wd.size needR = some x → exec (.ld h wd d a off) s = .next (s.accessTrap x s.r.pc)) ∧
    (∀ x, s.globalTrap ea ws.size needW = some x → exec (.st h ws d a off) s = .next (s.accessTrap x s.r.pc)) ∧
    (∀ n need i, (n = wd.size ∧ need = needR ∧ i = .ldAq h wd d a off) ∨
        (n = ws.size ∧ need = needW ∧ i = .stRl h ws d a off) →
      (ea.toNat % n ≠ 0 → exec i s = .next (s.accessTrap { trap := .align, addr := ea } s.r.pc)) ∧
      (∀ x, ea.toNat % n = 0 → s.globalTrap ea n need = some x → exec i s = .next (s.accessTrap x s.r.pc)) ∧
      (ea.toNat % n = 0 → s.globalTrap ea n need = none → s.onUn ea.toNat n = true →
        exec i s = .next (s.accessTrap { trap := .kind, addr := ea } s.r.pc))) ∧
    (∀ n need, 0 < n → 2 ^ 52 ≤ ea.toNat → s.globalTrap ea n need = some { trap := .pageNp, addr := ea })

/-- R130, R336: the check of an access that lies within one page of a translated core: no valid entry gives PAGE_NP,
a missing right PAGE_PERM, and page kind 11 KIND, in that order; the address is the access's own. -/
def Sys2Proof.Claims.PageChecks : Prop :=
  ∀ (s : State) (ea : Word) (n : Nat) (need : Need), s.run.kind ≠ .root → 0 < n → ea.toNat / 65536 = (ea.toNat + n - 1) / 65536 →
    ea.toNat < 2 ^ 52 →
    (s.leafFor s.run.ctx ea.toNat need.w = none → s.globalTrap ea n need = some { trap := .pageNp, addr := ea }) ∧
    (∀ e, s.leafFor s.run.ctx ea.toNat need.w = some e →
      ((need.r = true ∧ e.testBit 1 = false) ∨ (need.w = true ∧ e.testBit 2 = false) ∨
          (need.x = true ∧ e.testBit 3 = false) ∨ (need.amo = true ∧ e.testBit 4 = false) →
        s.globalTrap ea n need = some { trap := .pagePerm, addr := ea }) ∧
      ((need.r = true → e.testBit 1 = true) → (need.w = true → e.testBit 2 = true) →
        (need.x = true → e.testBit 3 = true) → (need.amo = true → e.testBit 4 = true) →
        (e.testBit 5 = true ∧ e.testBit 6 = true → s.globalTrap ea n need = some { trap := .kind, addr := ea }) ∧
        (e.testBit 5 = false ∨ e.testBit 6 = false → s.globalTrap ea n need = none)))

/-- R135: an AMO or CAS of a plain place with nothing on its way: g[d] takes the old value, sign-extended for .w,
and the new value is stored; a CAS that does not compare equal stores nothing. -/
def Sys2Proof.Claims.Atomics : Prop :=
  ∀ (h : Hdr) (d a b c : GReg) (off : BitVec 32) (s u : State) (ea : Word) (dbl : BitVec 1) (n : Nat) (ls : List Loc)
    (old x y : BitVec (8 * n)) (host : Bool),
    s.qual h = true → s.noneHeld → s.clean → s.run.comb = [] → s.run.flight = [] → ea = s.g a + off.signExtend 64 →
    n = (if dbl = 1 then 8 else 4) → s.amoTrap ea n host = none → u = s.touchAll ea.toNat n true →
    ls = u.locs ea.toNat n → ls = s.locs ea.toNat n → (ls.map Loc.place).Nodup → (∀ l ∈ ls, l.far = false) →
    (∀ i < n, old.extractLsb' (8 * i) 8 = ((ls[i]?).map u.fetchByte).getD 0) →
    x = (s.g b).setWidth (8 * n) → y = (s.g c).setWidth (8 * n) →
    (∀ op i, (i = Instr.amoAdd h dbl d a b off ∧ op = AmoOp.add ∧ host = true) ∨
        (i = .amoAnd h dbl d a b off ∧ op = .and ∧ host = false) ∨ (i = .amoOr h dbl d a b off ∧ op = .or ∧ host = false) ∨
        (i = .amoXor h dbl d a b off ∧ op = .xor ∧ host = false) ∨
        (i = .amoMin h dbl d a b off ∧ op = .min ∧ host = false) ∨
        (i = .amoMax h dbl d a b off ∧ op = .max ∧ host = false) ∨
        (i = .amoMinu h dbl d a b off ∧ op = .minu ∧ host = false) ∨
        (i = .amoMaxu h dbl d a b off ∧ op = .maxu ∧ host = false) ∨
        (i = .amoSwap h dbl d a b off ∧ op = .swap ∧ host = true) →
      ∃ t, exec i s = .next t ∧ t.g d = (if d = 0 then 0 else old.signExtend 64) ∧ (∀ j, j ≠ d → t.g j = s.g j) ∧
        Landed u t (ls.zip ((List.range n).map (fun k => (amoSpec op old x).extractLsb' (8 * k) 8))) ∧
        Retired s t 12 ∧ OnlyGAndBytes u t) ∧
    (host = true → ∃ t, exec (.cas h dbl d a b c off) s = .next t ∧ t.g d = (if d = 0 then 0 else old.signExtend 64) ∧
      (∀ j, j ≠ d → t.g j = s.g j) ∧
      Landed u t (if old = x then ls.zip ((List.range n).map (fun k => y.extractLsb' (8 * k) 8)) else []) ∧
      Retired s t 12 ∧ OnlyGAndBytes u t)

/-- R130, R131, R136: the checks of an atomic: alignment, the page with R, W and AMO rights, KIND on a UN page, and
KIND where host memory does not perform the operation. -/
def Sys2Proof.Claims.AtomicTraps : Prop :=
  ∀ (h : Hdr) (d a b c : GReg) (off : BitVec 32) (s : State) (ea : Word) (dbl : BitVec 1) (n : Nat),
    s.qual h = true → ea = s.g a + off.signExtend 64 → n = (if dbl = 1 then 8 else 4) →
    ∀ i x, (i ∈ [Instr.amoAdd h dbl d a b off, .amoSwap h dbl d a b off, .cas h dbl d a b c off] ∧
        s.amoTrap ea n true = some x) ∨
      (i ∈ [Instr.amoAnd h dbl d a b off, .amoOr h dbl d a b off, .amoXor h dbl d a b off, .amoMin h dbl d a b off,
        .amoMax h dbl d a b off, .amoMinu h dbl d a b off, .amoMaxu h dbl d a b off] ∧ s.amoTrap ea n false = some x) →
      exec i s = .next (s.accessTrap x s.r.pc) ∧
        (ea.toNat % n ≠ 0 → x = { trap := .align, addr := ea }) ∧
        (ea.toNat % n = 0 → ∀ y, s.globalTrap ea n needAmo = some y → x = y) ∧
        (ea.toNat % n = 0 → s.globalTrap ea n needAmo = none → x = { trap := .kind, addr := ea })

/-- R35, R144 to R146: a FENCE completes when every access that it covers has been performed, whatever else is on
its way: it records OCCURRED in FSTAT and p1; at SYS scope, where accesses of its kinds, made by the task or by its
jobs, were lost, it records PEER_FAILED with the lowest failed peer. A command whose guard is unresolved is no
predecessor. It changes nothing else. -/
def Sys2Proof.Claims.Fences : Prop :=
  ∀ (h : Hdr) (sc : Scope) (pred succ : BitVec 7) (s : State) (lost : List (Nat × Nat)),
    s.qual h = true →
    (∀ e ∈ s.run.held, e.guard = none → ∀ k, e.cmd.kindBit = some k → pred.getLsbD k = false) →
    (s.run.comb = [] ∨ (pred.getLsbD 1 = false ∧ pred.getLsbD 5 = false)) →
    (∀ f ∈ s.run.flight, ∀ k ∈ f.by_.bits, pred.getLsbD k = false) →
    (∀ q ∈ s.run.out, ∀ k ∈ RemOp.bits q.op, pred.getLsbD k = false) →
    s.jobPending pred.toNat = false →
    lost = s.run.lost ++ (s.mod.jobs.filter (fun j => j.task = s.run.task)).flatMap (fun j => j.lost) →
    (sc ≠ .sys ∨ (∀ x ∈ lost, pred.getLsbD x.2 = false) →
      exec (.fence h sc pred succ) s = .next ((({ s with r := { s.r with fstat := 0 } } : State).setP 1 true).retire 8)) ∧
    (sc = .sys → ∀ x ∈ lost, pred.getLsbD x.2 = true → (∀ y ∈ lost, pred.getLsbD y.2 = true → x.1 ≤ y.1) →
      exec (.fence h sc pred succ) s = .next ((({ s with r := { s.r with
        fstat := BitVec.ofNat 64 (x.1 * 2 ^ 8 + 5) } } : State).setP 1 false).retire 8))

/-- R134, R144, R145: while an access or a request of the segment of a kind that a fence covers is still on its way,
or a job of the task whose accesses are of such a kind, the scalar stream stalls at the fence and nothing changes; a
release waits for those of every kind. -/
def Sys2Proof.Claims.FencesWait : Prop :=
  ∀ (h : Hdr) (sc : Scope) (pred succ : BitVec 7) (wd : StW) (b a : GReg) (off : BitVec 32) (s : State),
    s.qual h = true → s.noneHeld → s.run.comb = [] →
    (∀ f ∈ s.run.flight, (∃ k ∈ f.by_.bits, pred.getLsbD k = true) → exec (.fence h sc pred succ) s = .next s) ∧
    (∀ q ∈ s.run.out, (∃ k ∈ RemOp.bits q.op, pred.getLsbD k = true) → exec (.fence h sc pred succ) s = .next s) ∧
    (s.jobPending pred.toNat = true → exec (.fence h sc pred succ) s = .next s) ∧
    (((∃ f ∈ s.run.flight, ∃ k ∈ [0, 1, 4, 5], k ∈ f.by_.bits) ∨ s.run.out ≠ []) →
      s.alignedTrap (s.g a + off.signExtend 64) wd.size needW = none → exec (.stRl h wd b a off) s = .next s)

/-- R147: PREF and PREF.ST complete whatever the page, raise no trap, and change no register and no byte. They do
nothing but retire where the access that they prefetch would trap, where the page is UN, and where a cache serves it
already; elsewhere they join or start a walk of the page. -/
def Sys2Proof.Claims.Prefetches : Prop :=
  ∀ (h : Hdr) (a : GReg) (off : BitVec 32) (s : State), s.qual h = true →
    (∀ i ∈ [Instr.pref h a off, .prefSt h a off], ∃ t, exec i s = .next t ∧ Retired s t 12 ∧ SameBytes s t ∧
      t.r.g = s.r.g ∧ t.r.p = s.r.p ∧ t.r.v = s.r.v ∧ t.r.evstat = s.r.evstat ∧ t.mod.reports = s.mod.reports ∧
      t.run.flight = s.run.flight ∧ t.mod.tlb = s.mod.tlb) ∧
    (∀ i need ea, (i = Instr.pref h a off ∧ need = needR) ∨ (i = .prefSt h a off ∧ need = needW) →
      ea = s.g a + off.signExtend 64 →
      (s.run.kind = .root ∨ s.globalTrap ea 1 need ≠ none ∨ s.onUn ea.toNat 1 = true ∨
          s.cached s.run.ctx ea.toNat ≠ none → exec i s = .next (s.retire 12)) ∧
      (s.run.kind ≠ .root → s.globalTrap ea 1 need = none → s.onUn ea.toNat 1 = false →
        s.cached s.run.ctx ea.toNat = none →
        exec i s = .next ((s.startWalk s.run.ctx (ea.toNat / 65536)).retire 12)))

/-- R28, R148, R149: WINSET writes a window register and WINCLR clears it; a value that R28 refuses traps ILLEGAL
and leaves the window, and a visitor may not write windows. -/
def Sys2Proof.Claims.WindowWrites : Prop :=
  ∀ (h : Hdr) (n : WinNo) (a : GReg) (s : State), s.qual h = true →
    (∀ i x, (i = .winset h n a ∧ x = s.g a) ∨ (i = .winclr h n ∧ x = 0) →
      (WindowOk x → s.run.visit = none → (∀ j ∈ s.mod.jobs, j.within s.rank.key = false) → ∃ t, exec i s = .next t ∧ t.rank.wins = s.rank.wins.set n.toNat x ∧
        Retired s t 8 ∧ SameBytes s t ∧
        { t with
          rank := { t.rank with wins := s.rank.wins }
          r := { t.r with pc := s.r.pc, lc := s.r.lc }
          run := { t.run with retired := s.run.retired, undo := s.run.undo } } = s) ∧
      (WindowOk x → s.run.visit = none → (∃ j ∈ s.mod.jobs, j.within s.rank.key = true) → exec i s = .next s) ∧
      (¬WindowOk x ∨ s.run.visit ≠ none → exec i s = .next (s.trap .illegal)))

/-- R139 to R141, R366: LDX, STX and AMOX check the handler, the alignment of the target offset and the rank at the
issuing core. With a credit free they complete: the request, under the core's next sequence number, is on its way
and takes one of the core's 64 credits; LDX and AMOX write their register when the answer returns. With none free
they stall. -/
def Sys2Proof.Claims.RemoteRequests : Prop :=
  ∀ (h : Hdr) (buf : Buf) (d b c a : GReg) (off : BitVec 32) (s : State) (ea : Word) (i : Instr) (op : RemOp) (n : Nat)
    (wd : LdW) (ws : StW) (dbl : BitVec 1), s.qual h = true → ea = s.g a + off.signExtend 64 →
    ((i = .ldx h buf wd d b a off ∧ op = .load wd d ∧ n = wd.size) ∨
      (i = .stx h buf ws b c a off ∧ op = .store (natBytes ws.size (s.g c).toNat) ∧ n = ws.size) ∨
      (∃ o, ((i = .amoxAdd h buf dbl d b c a off ∧ o = .add) ∨ (i = .amoxAnd h buf dbl d b c a off ∧ o = .and) ∨
          (i = .amoxOr h buf dbl d b c a off ∧ o = .or) ∨ (i = .amoxXor h buf dbl d b c a off ∧ o = .xor) ∨
          (i = .amoxMin h buf dbl d b c a off ∧ o = .min) ∨ (i = .amoxMax h buf dbl d b c a off ∧ o = .max) ∨
          (i = .amoxMinu h buf dbl d b c a off ∧ o = .minu) ∨ (i = .amoxMaxu h buf dbl d b c a off ∧ o = .maxu) ∨
          (i = .amoxSwap h buf dbl d b c a off ∧ o = .swap)) ∧
        op = .amo o (dbl == 1) (s.g c) d ∧ n = (if dbl = 1 then 8 else 4))) →
    (s.curHandler = false → ea.toNat % n = 0 → (s.g b).toNat < s.nrank → (s.g b).toNat < 2 ^ 20 → s.run.credits < 64 →
      exec i s = .next (State.retire { s with
        run := { s.run with out := s.run.out ++ [s.request b buf ea op], credits := s.run.credits + 1 }
        mod := { s.mod with
          nextId := s.mod.nextId + 1
          seqs := (s.core, (s.seqOf s.core + 1) % 2 ^ 32) :: s.mod.seqs.filter (fun x => x.1 ≠ s.core) }
        pending := s.pending ++ [.remoteRequest (s.request b buf ea op)] } 12)) ∧
    (s.curHandler = true → exec i s = .next (s.trap .handlerBlock)) ∧
    (s.curHandler = false →
      (ea.toNat % n ≠ 0 → exec i s = .next (s.trap .align (typedAddr buf ea))) ∧
      (ea.toNat % n = 0 → s.nrank ≤ (s.g b).toNat ∨ 2 ^ 20 ≤ (s.g b).toNat → exec i s = .next (s.trap .winNack (s.g b))) ∧
      (ea.toNat % n = 0 → (s.g b).toNat < s.nrank → (s.g b).toNat < 2 ^ 20 → 64 ≤ s.run.credits → exec i s = .next s))

/-- R141: STX.T never waits: with a credit free it sets p1 to 1 and sends its store; with none free it sets p1 to 0
and sends nothing. A handler may execute it. -/
def Sys2Proof.Claims.TryRemoteStore : Prop :=
  ∀ (h : Hdr) (buf : Buf) (ws : StW) (b c a : GReg) (off : BitVec 32) (s : State) (ea : Word) (q : RemoteReq),
    s.qual h = true → ea = s.g a + off.signExtend 64 →
    q = s.request b buf ea (.store (natBytes ws.size (s.g c).toNat)) →
    (ea.toNat % ws.size = 0 → (s.g b).toNat < s.nrank → (s.g b).toNat < 2 ^ 20 →
      (s.run.credits < 64 → exec (.stxT h buf ws b c a off) s = .next ((State.setP { s with
          run := { s.run with out := s.run.out ++ [q], credits := s.run.credits + 1 }
          mod := { s.mod with
            nextId := s.mod.nextId + 1
            seqs := (s.core, (s.seqOf s.core + 1) % 2 ^ 32) :: s.mod.seqs.filter (fun x => x.1 ≠ s.core) }
          pending := s.pending ++ [.remoteRequest q] } 1 true).retire 12)) ∧
      (64 ≤ s.run.credits → exec (.stxT h buf ws b c a off) s = .next ((s.setP 1 false).retire 12))) ∧
    (ea.toNat % ws.size ≠ 0 → exec (.stxT h buf ws b c a off) s = .next (s.trap .align (typedAddr buf ea))) ∧
    (ea.toNat % ws.size = 0 → s.nrank ≤ (s.g b).toNat ∨ 2 ^ 20 ≤ (s.g b).toNat →
      exec (.stxT h buf ws b c a off) s = .next (s.trap .winNack (s.g b)))

/-- R139, R141 to R143: MCST with an empty mask reports EMPTY and sends nothing. With the clusters of its mask in
the partition and a credit free, it reports OCCURRED and sends one request, which takes that credit and names the
clusters: its deliveries reach the ranks bound there when they are delivered. It stalls while no credit is free, and
may not run in a handler. The table is read with nothing on its way; an entry that fails its checks, or a poisoned
one, traps. -/
def Sys2Proof.Claims.MulticastStores : Prop :=
  ∀ (h : Hdr) (buf : Buf) (wd : McW) (b c a : GReg) (off : BitVec 32) (s : State) (ea : Word), s.qual h = true →
    s.noneHeld → ea = s.g a + off.signExtend 64 →
    (s.curHandler = true → exec (.mcst h buf wd b c a off) s = .next (s.trap .handlerBlock)) ∧
    (s.curHandler = false →
      (ea.toNat % wd.size ≠ 0 → exec (.mcst h buf wd b c a off) s = .next (s.trap .align (typedAddr buf ea))) ∧
      (ea.toNat % wd.size = 0 → s.g b = 0 →
        exec (.mcst h buf wd b c a off) s = .next ((s.setStatus .empty 0 0 0).retire 12)) ∧
      (ea.toNat % wd.size = 0 → s.g b ≠ 0 → s.run.flight = [] → s.linked →
        (∀ x, s.mctClusters (s.g b) = .inl x → exec (.mcst h buf wd b c a off) s = .next (s.mctFault x)) ∧
        (∀ cl, s.mctClusters (s.g b) = .inr cl →
          (s.run.credits < 64 → ∃ t q, exec (.mcst h buf wd b c a off) s = .next t ∧ Retired s t 12 ∧
            t.run.out = s.run.out ++ [q] ∧ t.run.credits = s.run.credits + 1 ∧ .remoteRequest q ∈ t.pending ∧
            q.cast = some { clusters := cl, served := [], refused := [] } ∧ q.src = s.sender ∧ q.pc = s.r.pc ∧
            q.buf = buf ∧ q.off = ea.toNat ∧ q.op = .store (match wd with
              | .q => natBytes 16 (s.v 0 c).toNat
              | _ => natBytes wd.size (s.g c).toNat) ∧
            t.r.evstat = evstatWord .occurred 0 0 0 ∧ t.p 1 = true ∧ (∀ j, j ≠ 1 → t.p j = s.p j) ∧ t.r.g = s.r.g ∧
            SameBytes (s.mctTouch (s.g b)) t) ∧
          (64 ≤ s.run.credits → exec (.mcst h buf wd b c a off) s = .next s))))

/-- R29: a window admits an access exactly when it is enabled, names the buffer, grants the right, admits the
sender, is not empty and holds every byte of the access. -/
def Sys2Proof.Claims.WindowAdmission : Prop :=
  ∀ (w : Word) (buf : Buf) (right : Nat) (off n : Nat) (member : Nat → Bool), right ∈ [57, 58, 59] →
    (winAdmits w buf right off n member = true ↔
      w.getLsbD 63 = true ∧ (w.extractLsb' 60 2).toNat = (match buf with | .w => 0 | .a => 1 | .c => 2) ∧
        w.getLsbD right = true ∧ (w.getLsbD 62 = true ∨ member (w.extractLsb' 44 12).toNat = true) ∧
        (w.extractLsb' 29 15).toNat ≠ 0 ∧ (w.extractLsb' 14 15).toNat * 16 ≤ off ∧
        off + n ≤ ((w.extractLsb' 14 15).toNat + (w.extractLsb' 29 15).toNat) * 16)

/-! ## Events and tasks -/

/-- R12, R150 to R152: the checks of an event operand, in order, where the descriptor stands: an absent descriptor,
the kind and class, the alignment and range of the payload operand, and the party. -/
def Sys2Proof.Claims.EventOperandChecks : Prop :=
  ∀ (s : State) (e : EvKey) (kindOk : Desc → Bool) (party : EvState → Bool), s.run.kind = .compute → s.run.visit = none →
    (s.ev e = none → s.evCheck e none kindOk party = .error { trap := .evtNotMember, addr := 0 } ∧
      ∀ c off, s.evCheck e (some (c, off)) kindOk party = .error (if off.toNat % 16 ≠ 0 then
        { trap := .align, addr := typedAddr (if c = true then .c else .a) off } else { trap := .evtNotMember, addr := 0 })) ∧
    (∀ x, s.ev e = some x →
      (kindOk x.desc = false → ∀ p, s.evCheck e p kindOk party = .error { trap := .illegal, addr := 0 }) ∧
      (kindOk x.desc = true →
        (party x = false → s.evCheck e none kindOk party = .error { trap := .evtNotMember, addr := 0 }) ∧
        (party x = true → s.evCheck e none kindOk party = .ok (x, none)) ∧
        (∀ c off n, n = x.desc.written (s.group e.ctx x.desc.group).length →
          (x.desc.cls = .none ∨ (x.desc.cls = .tile ∧ c = true) →
            s.evCheck e (some (c, off)) kindOk party = .error { trap := .illegal, addr := 0 }) ∧
          (x.desc.cls ≠ .none → ¬(x.desc.cls = .tile ∧ c = true) →
            (off.toNat % 16 ≠ 0 → s.evCheck e (some (c, off)) kindOk party =
              .error { trap := .align, addr := typedAddr (if c = true then .c else .a) off }) ∧
            (off.toNat % 16 = 0 → 131072 < off.toNat + n → s.evCheck e (some (c, off)) kindOk party =
              .error { trap := .pagePerm, addr := typedAddr (if c = true then .c else .a) off }) ∧
            (off.toNat % 16 = 0 → off.toNat + n ≤ 131072 → party x = true →
              s.evCheck e (some (c, off)) kindOk party = .ok (x, some { inC := c, off := off.toNat }))))))

/-- R12, R81, R124: a wait traps HANDLER_BLOCK in a handler; outside a compute core it traps ILLEGAL (the model's
choice, log 2: the spec gives such a core no task). -/
def Sys2Proof.Claims.WaitsOutsideTasks : Prop :=
  ∀ (h : Hdr) (i : Instr) (len : Nat) (s : State), IsWait i h len → s.qual h = true → s.atLoopEnd = false →
    (s.run.kind = .compute → s.curHandler = true → exec i s = .next (s.trap .handlerBlock)) ∧
    (s.run.kind ≠ .compute → exec i s = .next (s.trap .illegal))

/-- R40, R153, R154, R165, R198: the completion phase of a wait, when the task resumes at it: the outcome is written
to EVSTAT and p1, with the flags of a drain that added; a YIELD, which has no outcome, writes nothing. -/
def Obligations.WaitsComplete : Prop :=
  ∀ (h : Hdr) (i : Instr) (len : Nat) (s : State) (k : Task), IsWait i h len → s.qual h = true → s.atLoopEnd = false →
    s.run.kind = .compute → s.curHandler = false → s.run.resume = true → s.cur = some k →
    (∀ o w, k.outcome = some o → k.wait = some w → o.st ≠ .withdrawn →
      ∃ t, exec i s = .next t ∧ Reports s t o.st o.ev o.inst o.alt len ∧ t.run.resume = false ∧
        t.r.fpflags = (if s.r.fe = true then s.r.fpflags ||| k.drainFlags else s.r.fpflags)) ∧
    (k.outcome = none →
      exec i s = .next (State.retire { s with run := { s.run with resume := false } } len))

/-- R20 to R23, R153: EVW with a checked operand at the end of a finished segment: the record is saved under the
liveness mask, the task waits with an offer on its event, and the core is free. -/
def Sys2Proof.Claims.EvwOffers : Prop :=
  ∀ (h : Hdr) (ev : BitVec 20) (b c : GReg) (pay : Option PayOp) (s : State) (k : Task) (x : EvState) (q : Option Pay)
    (e : EvKey) (mask : Word),
    s.qual h = true → s.finished → s.cur = some k → e = { ctx := s.run.ctx, ev := (ev.toNat + (s.g b).toNat) % 2 ^ 20 } →
    s.evCheck e (s.payRef pay) sendKind s.sendParty = .ok (x, q) →
    mask = (if c = 0 then s.r.live else s.g c) →
    ∃ t k' ro r, exec (.evw h ev b pay c) s = .next t ∧ SavesTask s t k' mask ∧ k'.st = .waiting ro ∧
      r ∈ t.mod.recs ∧ r.ro = ro ∧ r.alts.map (fun a => a.e) = [e] ∧ Owed.offer ro 0 ∈ t.pending

/-- R157, R158: CHOOSE.W with a checked list of n entries offers every alternative under one record. -/
def Sys2Proof.Claims.ChooseOffersEveryAlternative : Prop :=
  ∀ (h : Hdr) (n : BitVec 5) (a c : GReg) (imm : BitVec 16) (s : State) (k : Task) (ea : Word) (mask : Word) (al : List Alt),
    s.qual h = true → s.finished → s.clean → s.cur = some k → ea = s.g a + imm.signExtend 64 → ea.toNat % 32 = 0 →
    1 ≤ n.toNat → n.toNat ≤ 8 → ea.toNat + 32 * n.toNat ≤ 131072 →
    (∀ i < n.toNat, s.entryTrap ea.toNat i = none) → al = s.choiceAlts ea.toNat n.toNat →
    mask = (if c = 0 then s.r.live else s.g c) →
    ∃ t k' ro r, exec (.chooseW h n a imm c) s = .next t ∧ SavesTask s t k' mask ∧ k'.st = .waiting ro ∧
      r ∈ t.mod.recs ∧ r.ro = ro ∧ r.alts.map (fun x => x.e) = al.map (fun x => x.e) ∧
      ∀ i < al.length, Owed.offer ro i ∈ t.pending

/-- R165: YIELD at the end of a finished segment saves the record and makes the task ready again. -/
def Sys2Proof.Claims.YieldMakesReady : Prop :=
  ∀ (h : Hdr) (c : GReg) (s : State) (k : Task) (mask : Word), s.qual h = true → s.finished → s.cur = some k →
    k.hold = false → mask = (if c = 0 then s.r.live else s.g c) →
    ∃ t k', exec (.yield h c) s = .next t ∧ SavesTask s t k' mask ∧
      k'.st = .ready ((s.sched k.core).seq)

/-- R164: END of a task without successors at the end of a finished segment: the task is gone, and the core is free
and looks for its next task. -/
def Sys2Proof.Claims.EndFreesTheTask : Prop :=
  ∀ (h : Hdr) (s : State) (k : Task), s.qual h = true → s.finished → s.cur = some k → k.act = none → k.tcb.succ = [] →
    ∃ t, exec (.endTask h) s = .next t ∧ t.mod.tasks = s.mod.tasks.filter (fun x => x.id ≠ k.id) ∧ t.run.on = false ∧
      Owed.taskDispatch s.core ∈ t.pending ∧ SameBytes s t

/-- R197, R198: CDRAIN.W and CRECV.W at the end of a finished segment offer their event with their accumulator,
whose pair the record keeps. -/
def Sys2Proof.Claims.DrainsOffer : Prop :=
  ∀ (h : Hdr) (d : CReg) (ev : BitVec 20) (b c : GReg) (s : State) (k : Task) (x : EvState) (e : EvKey) (mask : Word)
    (i : Instr) (mov : Option Bool), s.qual h = true → s.finished → s.cur = some k →
    ((i = .cdrainWAdd h d ev b c ∧ mov = some false) ∨ (i = .cdrainWMov h d ev b c ∧ mov = some true) ∨
      (i = .crecvW h d ev b c ∧ mov = none)) →
    e = { ctx := s.run.ctx, ev := (ev.toNat + (s.g b).toNat) % 2 ^ 20 } →
    mask = (if c = 0 then s.r.live else s.g c) →
    (∀ y, s.evCheck e none (s.drainKind mov) (s.drainParty mov.isSome) = .error y →
      exec i s = .next (s.trap y.trap y.addr)) ∧
    (s.evCheck e none (s.drainKind mov) (s.drainParty mov.isSome) = .ok (x, none) →
      ∃ t k' ro r, exec i s = .next t ∧ SavesTask s t k' (mask ||| (1#64 <<< (60 + d.toNat / 2))) ∧ k'.st = .waiting ro ∧
        r ∈ t.mod.recs ∧ r.ro = ro ∧ r.alts.map (fun a => a.e) = [e] ∧ r.acc = some d ∧ r.drain = mov.isSome ∧
        Owed.offer ro 0 ∈ t.pending)

/-- R155, R158, R199: a try stalls the scalar stream until its answer is there; the answer is then written to EVSTAT
and p1, or is the trap it names; a trying receive takes what it brings into its accumulator. -/
def Sys2Proof.Claims.TriesTakeTheirAnswer : Prop :=
  ∀ (h : Hdr) (i : Instr) (len : Nat) (recv : Option CReg) (s : State) (ro : Nat), IsTry i h len recv → s.qual h = true →
    s.run.trying = some ro →
    (s.run.answer = none → exec i s = .next s) ∧
    (∀ a, s.run.answer = some a → (∀ x, a.trap = some x →
      exec i s = .next (State.trap { s with run := { s.run with trying := none, answer := none } } x)) ∧
      (a.trap = none → (recv = none ∨ a.bs = []) →
        ∃ t, exec i s = .next t ∧ Reports s t a.out.st a.out.ev a.out.inst a.out.alt len ∧
          t.run.trying = none ∧ t.run.answer = none ∧ t.r.c = s.r.c) ∧
      (∀ c x, a.trap = none → recv = some c → a.bs ≠ [] → s.ev { ctx := s.run.ctx, ev := a.out.ev } = some x →
        ∃ t, exec i s = .next t ∧ t.acc c = (drainInto x.desc (s.acc c) a.bs).1 ∧ (∀ d, d ≠ c → t.acc d = s.acc d) ∧
          t.r.evstat = evstatWord a.out.st a.out.ev a.out.inst a.out.alt ∧ t.run.trying = none ∧ t.r.g = s.r.g ∧
          Retired s t len))

/-- R155: an EVT with nothing to wait for sends its offer, or its checks trap, before anything else. -/
def Sys2Proof.Claims.TriesCheckTheirEvent : Prop :=
  ∀ (h : Hdr) (ev : BitVec 20) (b : GReg) (pay : Option PayOp) (s : State) (e : EvKey) (y : TrapAt), s.qual h = true →
    s.run.trying = none → e = { ctx := s.run.ctx, ev := (ev.toNat + (s.g b).toNat) % 2 ^ 20 } →
    s.evCheck e (s.payRef pay) sendKind s.sendParty = .error y → exec (.evt h ev b pay) s = .next (s.trap y.trap y.addr)

/-- R84, R159 to R161, R163, R166: the deferred effects: each joins the segment's list, takes effect at its commit,
and changes nothing now. A full list of 64 entries traps ILLEGAL. -/
def Sys2Proof.Claims.DeferredEffects : Prop :=
  ∀ (h : Hdr) (ev : BitVec 20) (a b : GReg) (n : BitVec 16) (depth : BitVec 16) (pay : Option PayOp) (s : State)
    (e : EvKey) (x : EvState),
    s.qual h = true → e = { ctx := s.run.ctx, ev := (ev.toNat + (s.g b).toNat) % 2 ^ 20 } →
    (s.run.deferred.length < 64 →
      (∀ q, s.evCheck e (s.payRef pay) sendKind s.sendParty = .ok (x, q) →
        (x.desc.kind ≠ .group ∨ s.deferredTo e = false → Defers s (.signal h ev b pay) (.signal s.r.pc e q) 12) ∧
        (x.desc.kind = .group → s.deferredTo e = true → exec (.signal h ev b pay) s = .next (s.trap .evtDup))) ∧
      (s.evCheck e none (fun d => d.kind == .counted) (fun _ => true) = .ok (x, none) →
        Defers s (.armImm h ev b n) (.arm s.r.pc e n.toNat) 12 ∧
        (1 ≤ (s.g a).toNat → (s.g a).toNat ≤ 65535 → Defers s (.armReg h ev b a) (.arm s.r.pc e (s.g a).toNat) 12)) ∧
      (s.evCheck e none (fun d => d.kind == .binding) (fun _ => true) = .ok (x, none) → x.bound = false →
        (∀ d ∈ s.run.deferred, ∀ p f k m, d = .bind p f k m → f ≠ e) → (s.g a).toNat < 2 ^ 52 → (s.g a).toNat % 4 = 0 →
        Defers s (.bind h ev b a depth) (.bind s.r.pc e (s.g a) depth.toNat) 12) ∧
      (s.evCheck e none (fun d => d.kind == .binding) s.holds = .ok (x, none) →
        Defers s (.unbind h ev b) (.unbind s.r.pc e) 12)) ∧
    ((s.g a).toNat = 0 ∨ 65535 < (s.g a).toNat → exec (.armReg h ev b a) s = .next (s.trap .illegal)) ∧
    (2 ^ 52 ≤ (s.g a).toNat ∨ (s.g a).toNat % 4 ≠ 0 → exec (.bind h ev b a depth) s = .next (s.trap .illegal)) ∧
    (64 ≤ s.run.deferred.length → exec (.signal h ev b pay) s = .next (s.trap .illegal) ∧
      exec (.armImm h ev b n) s = .next (s.trap .illegal) ∧ exec (.unbind h ev b) s = .next (s.trap .illegal))

/-- R14, R163: SPAWN reads and checks the 128-byte TCB at its C offset and defers the spawn. -/
def Sys2Proof.Claims.SpawnDefersItsTcb : Prop :=
  ∀ (h : Hdr) (a : GReg) (imm : BitVec 16) (s : State) (ea : Word), s.qual h = true → s.noneHeld → s.clean →
    s.run.visit = none → s.run.deferred.length < 64 → ea = s.g a + imm.signExtend 64 →
    (ea.toNat % 16 ≠ 0 → exec (.spawn h a imm) s = .next (s.trap .align (typedAddr .c ea))) ∧
    (ea.toNat % 16 = 0 → 131072 < ea.toNat + 128 → exec (.spawn h a imm) s = .next (s.trap .pagePerm (typedAddr .c ea))) ∧
    (ea.toNat % 16 = 0 → ea.toNat + 128 ≤ 131072 → ∀ bs, bs = (s.rank.buf .c).read ea.toNat 128 →
      (tcbOf bs = none → exec (.spawn h a imm) s = .next (s.trap .illegal)) ∧
      (∀ k, tcbOf bs = some k → (k.handler = true ∨ k.rank ≠ s.rank.key.rank) →
        exec (.spawn h a imm) s = .next (s.trap .illegal)) ∧
      (∀ k, tcbOf bs = some k → k.handler = false → k.rank = s.rank.key.rank →
        (∀ n ∈ k.succ, s.succTrap n = none) → Defers s (.spawn h a imm) (.spawn s.r.pc k) 8))

/-- R169: EVSEQ reads an event's instance number and its arming state. -/
def Sys2Proof.Claims.EventSequence : Prop :=
  ∀ (h : Hdr) (d : GReg) (ev : BitVec 20) (b : GReg) (s : State) (e : EvKey), s.qual h = true → s.run.kind = .compute →
    e = { ctx := s.run.ctx, ev := (ev.toNat + (s.g b).toNat) % 2 ^ 20 } →
    (s.ev e = none → exec (.evseq h d ev b) s = .next (s.trap .evtNotMember)) ∧
    (∀ x, s.ev e = some x → GivesGThat s (.evseq h d ev b) d (fun y =>
      y.extractLsb' 0 32 = BitVec.ofNat 32 (if x.desc.kind = .collstart then x.cseq else x.inst) ∧
        (y.getLsbD 32 = true ↔ x.desc.kind = .counted ∧ x.armed = true) ∧ y.extractLsb' 33 15 = 0 ∧
        y.extractLsb' 48 16 = BitVec.ofNat 16 (if x.desc.kind = .counted ∧ x.armed = true then
          x.need - x.offers.length else 0)) 12)

/-! ## Traps -/

/-- R24, R326, R329: a trap on a compute core aborts the segment: the registers return to the checkpoint, the
deferred effects are discarded, the task is held, one report tells of it, which waits while the queue is full, and
bytes already written stay. -/
def Sys2Proof.Claims.TrapsAbortSegments : Prop :=
  ∀ (s : State) (x : Trap) (a : Word) (k : Task), s.run.kind = .compute → s.cur = some k →
    s.run.comb = [] → s.run.trying = none → s.run.arms = [] → s.run.visit = none →
    k.act = none → ∃ k' rep, (s.trap x a).r = k.saved ∧ (s.trap x a).run.deferred = [] ∧ (s.trap x a).run.on = false ∧
      (s.trap x a).task s.run.task = some k' ∧ k'.st = .held ∧ k'.hold = true ∧ k'.saved = k.saved ∧
      (if s.mod.reports.length < 4096
        then (s.trap x a).mod.reports = s.mod.reports ++ [rep] ∧ (s.trap x a).mod.waiting = s.mod.waiting
        else (s.trap x a).mod.reports = s.mod.reports ∧ (s.trap x a).mod.waiting = s.mod.waiting ++ [rep]) ∧ rep.code = x.code ∧ rep.pc = s.r.pc ∧ rep.addr = a ∧
      rep.seq = s.r.segseq ∧ rep.task = some k.id ∧ (s.run.pairs = [] → SameBytes s (s.trap x a))

/-- R24, R57, R149: the rest of an abort: windows that the segment wrote return to their values before its first
write of each; the working copy of every pair that the segment refreshed becomes equal to its committed copy, TOGGLE
as it was; and every other byte of C, the committed copies among them, stays. -/
def Sys2Proof.Claims.AbortsUndoWindows : Prop :=
  ∀ (s t : State) (x : Trap) (k : Task), s.run.kind = .compute → s.cur = some k →
    s.run.comb = [] → s.run.trying = none → s.run.arms = [] → s.run.visit = none → k.act = none → t = s.trap x →
    ((s.run.undo.map (fun u => u.1)).Nodup →
      (∀ u ∈ s.run.undo, ∀ n : Fin 8, u.1 = n.val → t.rank.wins[n] = u.2) ∧
      (∀ n : Fin 8, n.val ∉ s.run.undo.map (fun u => u.1) → t.rank.wins[n] = s.rank.wins[n])) ∧
    ((s.run.pairs.map (fun p => p.off)).Nodup →
      (∀ p ∈ s.run.pairs, ∀ q ∈ s.run.pairs, p.off ≠ q.off → p.off + 8192 ≤ q.off ∨ q.off + 8192 ≤ p.off) →
      (∀ p ∈ s.run.pairs, p.refreshed = true → ∀ i < 4096, workingOff s.rank.c p.off + i ≠ p.off + 3 →
        t.rank.c.get (workingOff s.rank.c p.off + i) = s.rank.c.get (committedOff s.rank.c p.off + i)) ∧
      (∀ a, (∀ p ∈ s.run.pairs, p.refreshed = true → a < workingOff s.rank.c p.off ∨ workingOff s.rank.c p.off + 4096 ≤ a ∨
        a = p.off + 3) → t.rank.c.get a = s.rank.c.get a) ∧
      t.rank.w = s.rank.w ∧ t.rank.a = s.rank.a ∧ t.mem = s.mem)

/-- R5, R219, R220, R340: a trap on a root-controller core enters at TVEC in supervisor mode with interrupts off,
the code, the PC, the address and the former mode and enable saved; nothing else changes. -/
def Sys2Proof.Claims.TrapsEnterAtTvec : Prop :=
  ∀ (s : State) (x : Trap) (a : Word), s.run.kind = .root →
    s.trap x a = { s with
      r := { s.r with pc := s.run.sup.tvec }
      run := { s.run with
        idle := false
        sup := { s.run.sup with
          trapcode := x.code, trappc := s.r.pc, trapaddr := a, ppriv := s.run.sup.priv, pie := s.run.sup.ie,
          priv := true, ie := false } } }

/-! ## Tiles and accumulators -/

/-- R37, R53, R190: TCFG takes a value whose fields are legal, and traps ILLEGAL for every other. -/
def Obligations.TileConfiguration : Prop :=
  ∀ (h : Hdr) (d : TReg) (a : GReg) (s : State) (x : Word) (fmt rows colb lay : Nat), s.qual h = true → x = s.g a →
    fmt = (x.extractLsb' 0 4).toNat → rows = (x.extractLsb' 4 6).toNat → colb = (x.extractLsb' 10 8).toNat →
    lay = (x.extractLsb' 18 2).toNat →
    (fmt ≤ 5 ∧ 1 ≤ rows ∧ rows ≤ 32 ∧ 16 ≤ colb ∧ colb ≤ 128 ∧ colb % 16 = 0 ∧ rows * colb ≤ 2048 ∧ x.extractLsb' 20 44 = 0 ∧
        (lay = 0 ∨ lay = 1 ∨ lay = 2 ∧ colb ∈ [16, 32, 64, 128]) →
      exec (.tcfg h d a) s = .next (State.retire
        { s with r := { s.r with tcfg := s.r.tcfg.set d.toNat (x.extractLsb' 0 20) } } 8)) ∧
    (¬ (fmt ≤ 5 ∧ 1 ≤ rows ∧ rows ≤ 32 ∧ 16 ≤ colb ∧ colb ≤ 128 ∧ colb % 16 = 0 ∧ rows * colb ≤ 2048 ∧
        x.extractLsb' 20 44 = 0 ∧ (lay = 0 ∨ lay = 1 ∨ lay = 2 ∧ colb ∈ [16, 32, 64, 128])) →
      exec (.tcfg h d a) s = .next (s.trap .illegal))

/-- R53, R54, R191, R192: TLD places ROWS rows of COLB bytes, STRIDE apart, in the layout in use, and fills the
sidecar as SCALE says; nothing else of the machine changes but what reading the pages' descriptors (R338) and
touching the pages does (R337). A global load is stated with nothing on its way. A row that may not be read, an
unaligned operand and an unconfigured tile trap. -/
def Sys2Proof.Claims.TileLoads : Prop :=
  ∀ (h : Hdr) (mem : TMem) (d : TReg) (a : GReg) (imm stride : BitVec 16) (lay : Layout) (sc : ScaleMode) (s : State)
    (ea : Word), s.openFor h → s.clean → ea = s.g a + imm.signExtend 64 →
    (s.tileUse d lay = none → exec (.tld h mem d a imm stride lay sc) s = .next (s.trap .illegal)) ∧
    (∀ cfg x, s.tileUse d lay = some cfg → s.tileTrap mem ea stride cfg needR (sc = .page) = some x →
      exec (.tld h mem d a imm stride lay sc) s =
        .next ((if x.trap = .fmt then s.tileFmts mem ea stride cfg else s).accessTrap x s.r.pc)) ∧
    (∀ cfg, stride.toNat % 16 ≠ 0 ∨ ea.toNat % 16 ≠ 0 → ∃ x, s.tileTrap mem ea stride cfg needR (sc = .page) = some x ∧
      x.trap = .align ∧ x.addr = (match tmemBuf mem with | some b => typedAddr b ea | none => ea)) ∧
    (∀ cfg f u, s.tileUse d lay = some cfg → s.tileTrap mem ea stride cfg needR (sc = .page) = none →
      f = s.tileFmts mem ea stride cfg →
      u = f.touchCmd (.tld d cfg (f.tileRows mem ea stride cfg) (f.sideFill mem ea stride cfg sc)) →
      (tmemBuf mem = none → s.run.flight = [] ∧ s.linked) →
      ∃ x : Tile, exec (.tld h mem d a imm stride lay sc) s = .next ((u.setTile d x).retire 12) ∧
        TiledAs cfg x.bytes (s.tileAt d).bytes (fun j b => u.byteAt (f.rowPlace mem ea stride j b)) ∧
        (sc = .keep → x.side = (s.tileAt d).side) ∧
        (sc = .ones ∨ sc = .page ∧ tmemBuf mem ≠ none → ∀ j (hj : j < 16), x.side[j] = 0x3F800000#32) ∧
        (sc = .page → tmemBuf mem = none → ∀ j (hj : j < 16), x.side[j] =
          match (f.rowScales cfg ea.toNat (rowStarts ea stride cfg.rows)).getD j none with
          | some (.inl p) => BitVec.ofNat 32 (leNat ((f.locs p 4).map u.byteAt))
          | _ => 0x3F800000#32))

/-- R53, R191, R193: TST writes byte x of row j from the tile's layout, stated where its bytes land at once at
different places; wherever they land, it retires with every register as before. -/
def Sys2Proof.Claims.TileStores : Prop :=
  ∀ (h : Hdr) (mem : TMem) (b : TReg) (a : GReg) (imm stride : BitVec 16) (lay : Layout) (s : State) (ea : Word),
    s.openFor h → s.clean → ea = s.g a + imm.signExtend 64 →
    (s.tileUse b lay = none → exec (.tst h mem b a imm stride lay) s = .next (s.trap .illegal)) ∧
    (∀ cfg x, s.tileUse b lay = some cfg → s.tileTrap mem ea stride cfg needW false = some x →
      exec (.tst h mem b a imm stride lay) s =
        .next ((if x.trap = .fmt then s.tileFmts mem ea stride cfg else s).accessTrap x s.r.pc)) ∧
    (∀ cfg f u xs, s.tileUse b lay = some cfg → s.tileTrap mem ea stride cfg needW false = none →
      f = s.tileFmts mem ea stride cfg → u = f.touchCmd (.tst b cfg (f.tileRows mem ea stride cfg)) →
      xs = (List.range cfg.rows).flatMap (fun j => (List.range cfg.colb).map (fun x =>
        (f.rowPlace mem ea stride j x, (s.tileAt b).bytes.get (cfg.off j (x / esize cfg.fmt) (x % esize cfg.fmt))))) →
      u.plainPlaces false (xs.map (fun x => x.1)) →
      ∃ t, exec (.tst h mem b a imm stride lay) s = .next t ∧ Landed u t xs ∧ t.r.g = s.r.g ∧ Retired s t 12 ∧
        OnlyGAndBytes u t) ∧
    (∀ cfg, s.tileUse b lay = some cfg → s.tileTrap mem ea stride cfg needW false = none →
      ∃ t, exec (.tst h mem b a imm stride lay) s = .next t ∧ t.r.g = s.r.g ∧ t.r.t = s.r.t ∧ Retired s t 12)

/-- R53, R194, R201: TZERO clears a tile and sets its sidecar to 1.0; TTR writes the transpose and copies the
sidecar; each traps ILLEGAL without the configurations it needs. -/
def Sys2Proof.Claims.TileClearsAndTransposes : Prop :=
  ∀ (h : Hdr) (d a : TReg) (s : State), s.openFor h →
    (∀ cd, s.tile? d = some cd →
      ∃ x : Tile, exec (.tzero h d) s = .next ((s.setTile d x).retire 8) ∧ (∀ j (hj : j < 16), x.side[j] = 0x3F800000#32) ∧
        ∀ o, x.bytes.get o = if o < cd.rows * cd.colb then 0 else (s.tileAt d).bytes.get o) ∧
    (∀ cd ca, s.tile? d = some cd → s.tile? a = some ca → cd.fmt = ca.fmt → cd.rows = ca.elems → cd.elems = ca.rows →
      ∃ x : Tile, exec (.ttr h d a) s = .next ((s.setTile d x).retire 8) ∧ x.side = (s.tileAt a).side ∧
        (∀ i < ca.rows, ∀ e < ca.elems, cd.elem x e i = ca.elem (s.tileAt a) i e) ∧
        ∀ o, cd.rows * cd.colb ≤ o → x.bytes.get o = (s.tileAt d).bytes.get o) ∧
    (s.tile? d = none → exec (.tzero h d) s = .next (s.trap .illegal)) ∧
    ((∀ cd ca, s.tile? d = some cd → s.tile? a = some ca →
        ¬ (cd.fmt = ca.fmt ∧ cd.rows = ca.elems ∧ cd.elems = ca.rows)) →
      exec (.ttr h d a) s = .next (s.trap .illegal))

/-- R194, R196, R202: CZERO clears an accumulator, CLD and CST move its 1,024 bytes between it and the C buffer, MXR
reads an amax register zero-extended, and MXCLR clears one with its NaN flag. -/
def Sys2Proof.Claims.AccumulatorMoves : Prop :=
  ∀ (h : Hdr) (c : CReg) (mx : MxReg) (d a : GReg) (off : BitVec 32) (s : State) (ea : Word), s.openFor h →
    ea = s.g a + off.signExtend 64 →
    (∃ x : Memory, exec (.czero h c) s = .next ((s.setAcc c x).retire 8) ∧ ∀ i < 16, ∀ n < 16, accGet x i n = 0) ∧
    GivesG s (.mxr h d mx) d (s.r.mx[mx.toNat].setWidth 64) 8 ∧
    (∃ f : BitVec 4, exec (.mxclr h mx) s = .next (State.retire
        { s with r := { s.r with mx := s.r.mx.set mx.toNat 0, mxflag := f } } 8) ∧
      ∀ k < 4, f.getLsbD k = (s.r.mxflag.getLsbD k && k != mx.toNat)) ∧
    (s.bufTrap .c ea 1024 16 = none → s.clean →
      (∃ x : Memory, exec (.cld h c a off) s = .next ((s.setAcc c x).retire 12) ∧
        ∀ o < 1024, x.get o = s.rank.c.get (ea.toNat + o)) ∧
      ∃ t, exec (.cst h c a off) s = .next t ∧
        (∀ o < 1024, t.rank.c.get (ea.toNat + o) = (s.acc c).get o) ∧
        (∀ o, o < ea.toNat ∨ ea.toNat + 1024 ≤ o → t.rank.c.get o = s.rank.c.get o) ∧
        (∀ o, t.rank.w.get o = s.rank.w.get o ∧ t.rank.a.get o = s.rank.a.get o ∧ t.mem.get o = s.mem.get o ∧
          t.sram.get o = s.sram.get o) ∧ t.r.g = s.r.g ∧ Retired s t 12 ∧ OnlyGAndBytes s t) ∧
    (∀ x, s.bufTrap .c ea 1024 16 = some x → exec (.cld h c a off) s = .next (s.accessTrap x s.r.pc) ∧
      exec (.cst h c a off) s = .next (s.accessTrap x s.r.pc))

/-- R50, R195: MMA. INT8 adds the exact sum of 128 signed products modulo 2^32; BF16 adds two sums of 32 products,
each rounded once; FP8 scales one sum of 128 products by the sidecars of the two rows and adds it. Any other pair of
configurations traps ILLEGAL. -/
def Obligations.MatrixMultiply : Prop :=
  ∀ (h : Hdr) (d : CReg) (a b : TReg) (s : State) (ca cb : TCfg) (A B : Tile), s.openFor h → s.tile? a = some ca →
    s.tile? b = some cb → A = s.tileAt a → B = s.tileAt b →
    (ca.rows = 16 ∧ cb.rows = 16 ∧ ca.colb = 128 ∧ cb.colb = 128 ∧
        (ca.fmt ≤ 1 ∧ cb.fmt ≤ 1 ∨ ca.fmt = 2 ∧ cb.fmt = 2 ∨ ca.fmt = 5 ∧ cb.fmt = 5) →
      ∃ (x : Memory) (fl : Flags), exec (.mma h d a b) s = .next (((s.setAcc d x).orFlags s.r.fe fl).retire 8) ∧
        (∀ i n old, i < 16 → n < 16 → old = accGet (s.acc d) i n →
          (ca.fmt = 5 → BitVec.ofNat 32 (accGet x i n) = BitVec.ofNat 32 old +
            (List.range 128).foldl (fun (acc : BitVec 32) k => acc + (BitVec.ofNat 8 (ca.elem A i k)).signExtend 32 *
              (BitVec.ofNat 8 (cb.elem B n k)).signExtend 32) 0) ∧
          (ca.fmt = 2 → accGet x i n =
            (add32 (add32 old (mmaDot ca cb A B i n 0 32)).bits (mmaDot ca cb A B i n 32 32)).bits % 2 ^ 32) ∧
          (ca.fmt ≤ 1 → accGet x i n = (add32 old (mul32 (mul32 (mmaDot ca cb A B i n 0 128)
            (A.side.getD i one32).toNat).bits (B.side.getD n one32).toNat).bits).bits % 2 ^ 32)) ∧
        (∀ o, 1024 ≤ o → x.get o = (s.acc d).get o) ∧ (ca.fmt = 5 → fl = 0)) ∧
    (¬ (ca.rows = 16 ∧ cb.rows = 16 ∧ ca.colb = 128 ∧ cb.colb = 128 ∧
        (ca.fmt ≤ 1 ∧ cb.fmt ≤ 1 ∨ ca.fmt = 2 ∧ cb.fmt = 2 ∨ ca.fmt = 5 ∧ cb.fmt = 5)) →
      exec (.mma h d a b) s = .next (s.trap .illegal))

/-- R46, R47, R52, R200: CCVT converts the 16 × 16 elements of an accumulator, directly or with the scale, into
element columns 16·CB to 16·CB + 15 of a tile, and with AE observes every unscaled element in row order. -/
def Obligations.AccumulatorConversion : Prop :=
  ∀ (h : Hdr) (dst : CvtTy) (r : Rnd) (inf ae : BitVec 1) (cb : BitVec 4) (d : TReg) (a : CReg) (sc : ScalarSrc) (mxn : MxReg)
    (s u : State) (x : Word) (cfg : TCfg) (res : Nat → Nat → FRes), s.openFor h → ReadsSource s .matrix sc x u →
    s.tile? d = some cfg →
    (res = fun i n =>
      if sc = .g 0 then convert (fmtF32.decode (accGet (s.acc a) i n)) dst r (inf == 1)
      else convertScaled (fmtF32.decode (accGet (s.acc a) i n)) (x.toNat % 2 ^ 32) dst r (inf == 1)) →
    (cfg.fmt = fmtCode dst ∧ cfg.rows = 16 ∧ 16 * (cb.toNat + 1) ≤ cfg.elems →
      ∃ t, exec (.ccvt h dst r inf cb d a sc ae mxn) s = .next t ∧
        (∀ i < 16, ∀ n < 16, cfg.elem (t.tileAt d) i (16 * cb.toNat + n) = (res i n).bits % 2 ^ (8 * dst.bytes)) ∧
        (∀ i < 16, ∀ e < cfg.elems, e / 16 ≠ cb.toNat → cfg.elem (t.tileAt d) i e = cfg.elem (s.tileAt d) i e) ∧
        (t.tileAt d).side = (s.tileAt d).side ∧ (∀ k, k ≠ d → t.tileAt k = s.tileAt k) ∧ t.r.c = s.r.c ∧
        (∀ b, t.r.fpflags.getLsbD b = true ↔ s.r.fpflags.getLsbD b = true ∨ (s.r.fe = true ∧ ∃ i < 16, ∃ n < 16,
          (res i n).flags.getLsbD b = true)) ∧
        (ae = 0 → t.r.mx = s.r.mx ∧ t.r.mxflag = s.r.mxflag) ∧
        (∀ o : Nat × Bool, ae = 1 → o = accIdx.foldl
            (fun acc p => amaxObserve (fmtF32.decode (accGet (s.acc a) p.1 p.2)) acc.1 acc.2)
            (s.r.mx[mxn.toNat].toNat, s.r.mxflag.getLsbD mxn.toNat) →
          t.r.mx[mxn.toNat].toNat = o.1 % 2 ^ 32 ∧ t.r.mxflag.getLsbD mxn.toNat = o.2 ∧
          ∀ k : MxReg, k ≠ mxn → t.r.mx[k.toNat] = s.r.mx[k.toNat] ∧
            t.r.mxflag.getLsbD k.toNat = s.r.mxflag.getLsbD k.toNat) ∧
        Retired u t 8 ∧ OnlyM u t ∧ SameBytes u t) ∧
    (¬ (cfg.fmt = fmtCode dst ∧ cfg.rows = 16 ∧ 16 * (cb.toNat + 1) ≤ cfg.elems) →
      exec (.ccvt h dst r inf cb d a sc ae mxn) s = .next (s.trap .illegal))

/-! ## Summaries -/

/-- R55 to R71, R203 to R206: SKINIT writes the empty summary with seed COINSEED into both copies of a pair; the
four SKADDs add the enabled lanes, in ascending order, to the pair's summary, and SKMERGE merges a block into it,
leaving the result in the working copy and the committed copy as it was. -/
def Sys2Proof.Claims.SummaryUpdates : Prop :=
  ∀ (h : Hdr) (a b : GReg) (imm : BitVec 16) (s : State) (ea : Word) (off : Nat), s.openFor h → s.clean →
    ea = s.g a + imm.signExtend 64 → off = ea.toNat → s.pairTrap ea = none → s.pairFull off = false →
    (∀ t, s.pairBusy off = false → ∃ u, exec (.skinit h t a imm) s = .next u ∧
      (∀ o < 4096, u.rank.c.get (off + o) = ((Sk.empty t s.r.coinseed).bytes false 0).getD o 0 ∧
        u.rank.c.get (off + 4096 + o) = ((Sk.empty t s.r.coinseed).bytes false 0).getD o 0) ∧
      (∀ o, o < off ∨ off + 8192 ≤ o → u.rank.c.get o = s.rank.c.get o) ∧
      (∃ p ∈ u.run.pairs, p.off = off ∧ p.refreshed = true) ∧ u.r.fpflags = s.r.fpflags ∧ Retired s u 8 ∧ OnlyPair s u) ∧
    (∀ (t : SkTy) (i : Instr) (v : VReg) (m : MReg) (w : Nat), s.pairCheck t off = none →
      (t = .q ∧ i = .skqadd h v a imm m ∨ t = .h ∧ i = .skhadd h v a imm m ∨ t = .d ∧ i = .skdadd h v a imm m ∨
        t = .m ∧ i = .skmadd h v a imm m) → w = (if t = .d then 8 else 4) →
      ∃ u, exec i s = .next u ∧ ∀ r, r = skAddAll (readSk s.rank t (s.pairCopy off))
          (((List.range (16 / w)).filter (fun k => (s.m 0 m).getLsbD (w * k))).map (fun k => lane w k (s.v 0 v))) s.rankNo →
        LeavesSummary s u off r.1 r.2) ∧
    (∀ (t : SkTy) (sb : Buf) (so : Nat), skSource (s.g b) = some (sb, so) → s.mergeTrap ea sb so = none →
      s.pairType off = some t → s.sourceOk t sb so = true → s.pairCheck t off = none →
      ∃ u, exec (.skmerge h b a imm) s = .next u ∧ ∀ r, r = skMerge (readSk s.rank t (s.pairCopy off))
          (skParse t ((s.rank.buf sb).read so 4096)) s.rankNo → LeavesSummary s u off r.1 r.2)

/-- R203, R205, R206: a pair operand that is not 4,096-aligned or does not lie in C traps; then malformed bytes trap
ILLEGAL, BUSY traps ENGINE, and a ninth pair in a segment traps SKLIMIT. -/
def Sys2Proof.Claims.SummaryTraps : Prop :=
  ∀ (h : Hdr) (a : GReg) (imm : BitVec 16) (s : State) (ea : Word) (off : Nat) (v : VReg) (m : MReg), s.openFor h →
    ea = s.g a + imm.signExtend 64 → off = ea.toNat →
    (off % 4096 ≠ 0 → ∀ t, exec (.skinit h t a imm) s = .next (s.trap .align (typedAddr .c ea)) ∧
      exec (.skqadd h v a imm m) s = .next (s.trap .align (typedAddr .c ea))) ∧
    (off % 4096 = 0 → 131072 < off + 8192 → ∀ t, exec (.skinit h t a imm) s = .next (s.trap .pagePerm (typedAddr .c ea)) ∧
      exec (.skqadd h v a imm m) s = .next (s.trap .pagePerm (typedAddr .c ea))) ∧
    (s.pairTrap ea = none →
      (s.pairBusy off = true → ∀ t, exec (.skinit h t a imm) s = .next (s.trap .engine)) ∧
      (s.pairBusy off = false → s.pairFull off = true → ∀ t, exec (.skinit h t a imm) s = .next (s.trap .sklimit)) ∧
      (∀ t i, (t = .q ∧ i = .skqadd h v a imm m ∨ t = .h ∧ i = .skhadd h v a imm m ∨ t = .d ∧ i = .skdadd h v a imm m ∨
          t = .m ∧ i = .skmadd h v a imm m) →
        (skOk t (s.rank.c.read (s.pairCopy off) 4096) = false ∨ 1 < (s.rank.c.get (off + 3)).toNat →
          exec i s = .next (s.trap .illegal)) ∧
        (skOk t (s.rank.c.read (s.pairCopy off) 4096) = true → (s.rank.c.get (off + 3)).toNat ≤ 1 → s.pairBusy off = true →
          exec i s = .next (s.trap .engine)) ∧
        (s.pairCheck t off = none → s.pairFull off = true → exec i s = .next (s.trap .sklimit))))

/-- R57, R64, R66, R68, R70, R207: the queries read the working copy of a pair that the segment has modified, else
the committed copy; a selector out of range traps ILLEGAL. -/
def Obligations.SummaryQueries : Prop :=
  ∀ (h : Hdr) (d b a : GReg) (imm : BitVec 16) (s : State) (ea : Word) (off : Nat) (k : SkTy → Sk), s.openFor h → s.clean →
    ea = s.g a + imm.signExtend 64 → off = ea.toNat → s.pairTrap ea = none →
    (k = fun t => readSk s.rank t (if ∃ p ∈ s.run.pairs, p.off = off ∧ p.refreshed = true then workingOff s.rank.c off
      else committedOff s.rank.c off)) →
    (s.pairCheck .q off = none →
      GivesG s (.skquant h d b a imm) d (BitVec.ofNat 64 (qQuery (k .q) ((s.g b).toNat % 2 ^ 32))) 8) ∧
    (s.pairCheck .h off = none → (s.g b).toNat < 512 → GivesG s (.sktopk h d b a imm) d (topkWord (k .h) (s.g b).toNat) 8) ∧
    (s.pairCheck .d off = none → GivesG s (.skcard h d a imm) d (BitVec.ofNat 64 (dEstimate (k .d).regs)) 8) ∧
    (s.pairCheck .m off = none →
      (s.g b = 0 → GivesG s (.skmom h d b a imm) d (BitVec.ofNat 64 (k .m).count) 8) ∧
      (s.g b = 1 → GivesG s (.skmom h d b a imm) d (BitVec.ofNat 64 (k .m).mean) 8) ∧
      (s.g b = 2 → GivesG s (.skmom h d b a imm) d (BitVec.ofNat 64 (if (k .m).count = 0 then fmtF32.nan
        else (div32 (k .m).m2 (natF32 (k .m).count).bits).bits)) 8) ∧
      (s.g b = 3 → GivesG s (.skmom h d b a imm) d (BitVec.ofNat 64 (k .m).min) 8) ∧
      (s.g b = 4 → GivesG s (.skmom h d b a imm) d (BitVec.ofNat 64 (k .m).max) 8)) ∧
    (512 ≤ (s.g b).toNat → exec (.sktopk h d b a imm) s = .next (s.trap .illegal)) ∧
    (4 < (s.g b).toNat → exec (.skmom h d b a imm) s = .next (s.trap .illegal))

/-! ## Engine jobs -/

/-- R208, R209, R211, R213, R214, R217, R218: an issue whose checks pass, with a slot free in its queue, completes:
g[d] receives the next job number modulo 2^16, its record is in the rank's queue under that number, and CPY.T also
sets p1. An unguarded one, whose event was unarmed and is armed by it, is queued, after the stores gathered before
it have left, and its unit is to start it; a guarded one waits for its generation. -/
def Sys2Proof.Claims.JobsAreIssued : Prop :=
  ∀ (h : Hdr) (d a b : GReg) (imm : BitVec 16) (s u : State) (ea : Word) (bs : List Byte) (o : IssueOk) (i : Instr)
    (tr : Bool) (st : JobSt),
    s.run.kind = .compute → s.clean → s.qual h = true → s.curHandler = false → s.run.visit = none →
    ea = s.g a + imm.signExtend 64 → s.bufTrap .c ea 32 32 = none → s.waitsFor [.buf .c ea.toNat 32] [] = false →
    bs = s.rank.c.read ea.toNat 32 →
    s.vqFull s.rank.key o.kind.eng = false →
    u = State.drainComb { s with run := { s.run with retryAt := none } } →
    (h.guard = none ∧ st = .queued ∧ (tr = false → s.retryWaits = false) ∧
        (o.cev = none ∨ ∃ e t, o.cev = some e ∧ u.arm e 2 (some u.fresh) (some s.rank.key.launch) = (.ok, t)) ∨
      h.guard ≠ none ∧ st = .guarded) →
    (i = .cpy h d a imm ∧ tr = false ∧ s.copyCheck .copy (fun _ => none) bs = .ok o ∨
      i = .cpyT h d a imm ∧ tr = true ∧ s.copyCheck .copy (fun _ => none) bs = .ok o ∨
      i = .cpysk h d b a imm ∧ tr = false ∧ s.copyCheck (.tap (s.g b).toNat) (s.tapTrap (s.g b)) bs = .ok o ∧
        s.waitsFor [.buf .c ea.toNat 32, .buf .c (s.g b).toNat 8192] [.buf .c (s.g b).toNat 8192] = false ∨
      i = .txe h d a imm ∧ tr = false ∧ o.kind = .txe ∧ (∃ v, v = s.vocabIn s.run.ctx (textRec bs).vh ∧ v ≠ [] ∧
        (textRec bs).bad = false ∧ (textRec bs).len ≤ 2 ^ 24 ∧ (textRec bs).dst % 4 = 0 ∧
        s.textCheck .txe bs false (textRec bs).len (4 * (textRec bs).cap) v = .ok o) ∨
      i = .txd h d a imm ∧ tr = false ∧ o.kind = .txd ∧ (∃ v, v = s.vocabIn s.run.ctx (textRec bs).vh ∧ v ≠ [] ∧
        (textRec bs).bad = false ∧ (textRec bs).len ≤ 2 ^ 22 ∧ (textRec bs).src % 4 = 0 ∧
        s.textCheck .txd bs false (4 * (textRec bs).len) (textRec bs).cap v = .ok o) ∨
      i = .vocab h d a imm ∧ tr = false ∧ o.kind = .vocab ∧ (textRec bs).bad = false ∧ 64 ≤ (textRec bs).len ∧
        (textRec bs).len ≤ 2 ^ 31 ∧ fld bs 8 8 = 0 ∧ (textRec bs).cap = 0 ∧
        s.textCheck .vocab bs false (textRec bs).len 0 [] = .ok o) →
    ∃ t, exec i s = .next t ∧
      t.g d = (if d = 0 then 0 else BitVec.ofNat 64 (s.issued s.rank.key o.kind.eng % 65536)) ∧ (∀ j, j ≠ d → t.g j = s.g j) ∧
      t.p 1 = (if tr then true else s.p 1) ∧ (∀ j, j ≠ 1 → t.p j = s.p j) ∧ Retired s t 8 ∧
      t.issued s.rank.key o.kind.eng = s.issued s.rank.key o.kind.eng + 1 ∧
      ∃ j ∈ t.mod.jobs, j.record = bs ∧ j.kind = o.kind ∧ j.ea = ea.toNat ∧ j.st = st ∧ j.cev = o.cev ∧
        j.rank = s.rank.key ∧ j.task = s.run.task ∧ j.no = s.issued s.rank.key o.kind.eng % 65536 ∧
        (h.guard = none → j.step ∈ t.pending) ∧
        (∀ k, h.guard = some k → t.run.gq = s.run.gq ++ [{ k := k, gen := s.r.k[k.toNat].gen, job := j.id }])

/-- R18, R215: COLL with its checks passed and room in the deferred list completes: it takes the next job number,
which g[d] receives, and joins the segment's deferred list; a guarded one also waits for its generation. -/
def Sys2Proof.Claims.CollIsDeferred : Prop :=
  ∀ (h : Hdr) (d a : GReg) (imm : BitVec 16) (s : State) (ea : Word) (bs : List Byte) (e : EvKey) (o : IssueOk),
    s.run.kind = .compute → s.clean → s.qual h = true → s.curHandler = false → s.run.visit = none →
    s.run.deferred.length < 64 → ea = s.g a + imm.signExtend 64 → s.bufTrap .c ea 128 128 = none →
    s.waitsFor [.buf .c ea.toNat 128] [] = false →
    bs = s.rank.c.read ea.toNat 128 → s.collCheck bs = .ok (e, o) → s.vqFull s.rank.key .coll = false →
    ∃ t, exec (.coll h d a imm) s = .next t ∧
      t.g d = (if d = 0 then 0 else BitVec.ofNat 64 (s.issued s.rank.key .coll % 65536)) ∧ (∀ j, j ≠ d → t.g j = s.g j) ∧
      t.r.p = s.r.p ∧ t.run.deferred = s.run.deferred ++ [.coll s.r.pc e s.fresh] ∧ Retired s t 8 ∧
      (∃ j ∈ t.mod.jobs, j.id = s.fresh ∧ j.record = bs ∧ j.kind = .coll ∧
        j.st = (if h.guard = none then .deferred else .guarded)) ∧
      (∀ k, h.guard = some k → t.run.gq = s.run.gq ++ [{ k := k, gen := s.r.k[k.toNat].gen, job := s.fresh }])

/-- R208, R211, R213: the traps of an issue and the full queue. In a handler only CPY.T may issue; a record that is
not aligned to its size traps ALIGN; a reserved bit of a copy record, or ROWS = 0, traps ENGINE; while the next of
the 64 slots is taken CPY stalls, and CPY.T clears p1 and goes on. -/
def Sys2Proof.Claims.IssueTraps : Prop :=
  ∀ (h : Hdr) (d a b : GReg) (imm : BitVec 16) (s : State) (ea : Word) (bs : List Byte), s.run.kind = .compute → s.noneHeld →
    s.qual h = true → h.guard = none → ea = s.g a + imm.signExtend 64 → bs = s.rank.c.read ea.toNat 32 →
    (s.curHandler = true → ∀ i, i = .cpy h d a imm ∨ i = .cpysk h d b a imm ∨ i = .txe h d a imm ∨ i = .txd h d a imm ∨
      i = .vocab h d a imm ∨ i = .coll h d a imm → exec i s = .next (s.trap .handlerBlock)) ∧
    (s.curHandler = false → ea.toNat % 32 ≠ 0 → ∀ i, i = .cpy h d a imm ∨ i = .cpyT h d a imm ∨ i = .cpysk h d b a imm ∨
      i = .txe h d a imm ∨ i = .txd h d a imm ∨ i = .vocab h d a imm → exec i s = .next (s.trap .align (typedAddr .c ea))) ∧
    (s.curHandler = false → s.clean → s.bufTrap .c ea 32 32 = none →
      (1 < fld bs 19 1 ∨ fld bs 20 2 = 0 ∨ 2 ^ 20 ≤ fld bs 28 3 ∨ fld bs 31 1 ≠ 0 →
        ∀ i, i = .cpy h d a imm ∨ i = .cpyT h d a imm ∨ i = .cpysk h d b a imm → exec i s = .next (s.trap .engine)) ∧
      (∀ o, s.copyCheck .copy (fun _ => none) bs = .ok o → s.vqFull s.rank.key .copy = true →
        exec (.cpy h d a imm) s = .next s ∧ exec (.cpyT h d a imm) s = .next ((s.setP 1 false).retire 8)))

/-! ## Traps, ERET and the supervisor instructions -/

/-- R219: TRAP traps USER and BRK traps BREAK, with imm30 in TRAPADDR. -/
def Sys2Proof.Claims.TrapAndBreak : Prop :=
  ∀ (h : Hdr) (imm : BitVec 30) (s : State), s.qual h = true →
    exec (.trap h imm) s = .next (s.trap .user (imm.setWidth 64)) ∧
    exec (.brk h imm) s = .next (s.trap .break_ (imm.setWidth 64))

/-- R221: ERET resumes at TRAPPC with the privilege and interrupt enable of before the trap; a TRAPPC whose bits 1:0
are nonzero traps ALIGN at ERET. Nothing else changes. -/
def Obligations.EretResumes : Prop :=
  ∀ (h : Hdr) (s : State), s.supervisor = true → s.qual h = true →
    (s.run.sup.trappc.extractLsb' 0 2 = 0 → exec (.eret h) s = .next { s with
      r := { s.r with pc := s.run.sup.trappc }
      run := { s.run with sup := { s.run.sup with
        priv := s.run.sup.ppriv
        ie := s.run.sup.pie
        pie := true
        ppriv := true } } }) ∧
    (s.run.sup.trappc.extractLsb' 0 2 ≠ 0 → exec (.eret h) s = .next (s.trap .align s.run.sup.trappc))

/-- R222: XLINV drops every cached translation, descriptor and walk, XLINV.ctx those of a context, XLINV.va the
entries of a context that serve an address, and it retires when no access that they translated is on its way, until
when it stalls. -/
def Sys2Proof.Claims.TranslationInvalidation : Prop :=
  ∀ (h : Hdr) (a b : GReg) (s : State), s.supervisor = true → s.qual h = true →
    (∀ w, s.translated { ctx := none, page := none } = w → ∃ t, exec (.xlinv h) s = .next t ∧ t.mod.tlb = [] ∧
      t.mod.fmts = [] ∧ t.mod.walks = [] ∧ t.mem = s.mem ∧
      t.run = { s.run with retired := t.run.retired, xlSize := t.run.xlSize } ∧ t.r.g = s.r.g ∧ t.r.p = s.r.p ∧
      (w = false → Retired s t 8) ∧ (w = true → t.r.pc = s.r.pc)) ∧
    ((s.g a).toNat < 64 →
      (∀ w, s.translated { ctx := some (s.g a).toNat, page := none } = w → ∃ t, exec (.xlinvCtx h a) s = .next t ∧
        (∀ x, x ∈ t.mod.tlb ↔ x ∈ s.mod.tlb ∧ x.ctx ≠ (s.g a).toNat) ∧ (∀ x ∈ t.mod.walks, x.ctx ≠ (s.g a).toNat) ∧
        t.mem = s.mem ∧ t.r.g = s.r.g ∧ t.r.p = s.r.p ∧ (w = false → Retired s t 8) ∧ (w = true → t.r.pc = s.r.pc)) ∧
      ((s.g b).toNat < 2 ^ 52 → ∀ w,
          s.translated { ctx := some (s.g a).toNat, page := some ((s.g b).toNat, s.pageSize (s.g a).toNat (s.g b).toNat) } = w →
        ∃ t, exec (.xlinvVa h a b) s = .next t ∧
        (∀ x, x ∈ t.mod.tlb ↔ x ∈ s.mod.tlb ∧ x.serves (s.g a).toNat (s.g b).toNat = false) ∧ t.mem = s.mem ∧
        (∀ x ∈ t.mod.walks, x.ctx = (s.g a).toNat → x.page / 512 ≠ (s.g b).toNat / 2 ^ 25) ∧
        t.r.g = s.r.g ∧ t.r.p = s.r.p ∧ (w = false → Retired s t 8) ∧ (w = true → t.r.pc = s.r.pc)) ∧
      (2 ^ 52 ≤ (s.g b).toNat → exec (.xlinvVa h a b) s = .next (s.trap .illegal))) ∧
    (64 ≤ (s.g a).toNat → exec (.xlinvCtx h a) s = .next (s.trap .illegal) ∧
      exec (.xlinvVa h a b) s = .next (s.trap .illegal))

/-- R223, R225, R335: CTXSAVE of a quiesced context whose jobs stand between rows writes an area at CTXREC that
begins with MAGIC, VERSION 1 and the context's number, and leaves the context allocated; while a job is in the
middle of a row it stalls. CTXLOAD of an area into a free number leaves the context quiesced, its events in it with
their instances, armings, and offers in their order with their stamps. IDLE stalls the core until an interrupt is
pending. A context number of 64 or more, and one that is not in the state required, trap ILLEGAL. -/
def Sys2Proof.Claims.SupervisorOperations : Prop :=
  ∀ (h : Hdr) (a : GReg) (s : State) (n pa : Nat), s.supervisor = true → s.qual h = true → n = (s.g a).toNat →
    pa = s.run.sup.ctxrec.toNat →
    (∀ c, n < 64 → s.ctx n = some c → s.isQuiesced c = true → s.settled n = true →
      ((s.stopJobs n).stopping n = false → ∃ t, exec (.ctxsave h a) s = .next t ∧
        t = ((s.stopJobs n).ctxSave c pa).retire 8 ∧ t.mem.read pa 4 = natBytes 4 0x54535844 ∧
        t.mem.read (pa + 4) 2 = [1, 0] ∧ t.mem.get (pa + 6) = BitVec.ofNat 8 c.id ∧ t.ctx n = some c ∧
        t.r.g = s.r.g ∧ Retired s t 8) ∧
      ((s.stopJobs n).stopping n = true → exec (.ctxsave h a) s = .next (s.stopJobs n))) ∧
    (∀ x, n < 64 → s.ctx n = none → s.savedAt pa = some x → ∃ t, exec (.ctxload h a) s = .next t ∧
      t = (s.ctxLoad x n).retire 8 ∧ (∃ c, t.ctx n = some c ∧ c.quiesced = true) ∧
      (∀ y ∈ x.events, ∃ z ∈ t.mod.events, z.key = { ctx := n, ev := y.key.ev } ∧ z.inst = y.inst ∧ z.armed = y.armed ∧
        z.need = y.need ∧ z.offers.map (fun o => (o.stamp, o.bytes)) = y.offers.map (fun o => (o.stamp, o.bytes))) ∧
      t.r.g = s.r.g ∧ Retired s t 8) ∧
    (64 ≤ n ∨ s.ctx n = none ∨ (∃ c, s.ctx n = some c ∧ s.isQuiesced c = false) →
      exec (.ctxsave h a) s = .next (s.trap .illegal)) ∧
    (64 ≤ n ∨ s.ctx n ≠ none → exec (.ctxload h a) s = .next (s.trap .illegal)) ∧
    (s.ipendOf s.run ≠ 0 → exec (.idle h) s = .next (State.retire { s with run := { s.run with idle := false } } 8)) ∧
    (s.ipendOf s.run = 0 → exec (.idle h) s = .next { s with run := { s.run with idle := true } })

/-- R224: KNOTOP.rd reads the event's state word and KNOTOP.wr sets its next instance number. KNOTOP.purge leaves no
record of the event, no offer, arming or accepted message; KNOTOP.cancel ends every pending offer with CANCELLED;
where a record is CLAIMED both wait for its round; with ALL they act on every event of the context. A reserved bit
of the selector, and ALL for rd and wr, trap ILLEGAL. -/
def Sys2Proof.Claims.KnotOperations : Prop :=
  ∀ (h : Hdr) (d a b : GReg) (s : State) (e : EvKey), s.supervisor = true → s.qual h = true →
    e = { ctx := ((s.g a).extractLsb' 20 6).toNat, ev := ((s.g a).extractLsb' 0 20).toNat } →
    ((s.g a).extractLsb' 26 38 = 0 →
      (∀ x, s.ev e = some x → GivesG s (.knotopRd h d a) d (evWord x) 8) ∧
      exec (.knotopWr h a b) s = .next (State.retire
        (s.updEv e (fun x => if x.desc.kind = .collstart then { x with cseq := ((s.g b).extractLsb' 0 32).toNat }
          else { x with inst := ((s.g b).extractLsb' 0 32).toNat })) 8) ∧
      (∀ x, s.ev e = some x →
        (∃ t, exec (.knotopPurge h a) s = .next t ∧ t = (s.endEvent e .purge).retire 8 ∧ Retired s t 8 ∧ t.r.g = s.r.g ∧
          ∃ y, t.ev e = some y ∧ (x.round = none → y.offers = [] ∧ y.armed = false ∧ y.accepted = [] ∧
            ∀ o ∈ x.offers, o.single = true → t.recOf o.ro = none) ∧
          (x.round ≠ none → y = { x with ending := some .purge })) ∧
        (∃ t, exec (.knotopCancel h a) s = .next t ∧ t = (s.endEvent e (.cancel .cancelled)).retire 8 ∧ Retired s t 8 ∧
          t.r.g = s.r.g ∧ ∃ y, t.ev e = some y ∧
          (x.round = none → y.offers = [] ∧ y.armed = x.armed ∧ y.accepted = x.accepted ∧ ∀ o ∈ x.offers,
            Owed.commit { ro := o.ro, alt := o.alt, e := e, inst := x.inst, st := .cancelled, bs := [] } ∈ t.pending) ∧
          (x.round ≠ none → y = { x with ending := some (.cancel .cancelled) })))) ∧
    ((s.g a).extractLsb' 26 38 = 1 →
      exec (.knotopPurge h a) s = .next ((s.onEvents e.ctx none .purge).retire 8) ∧
      exec (.knotopCancel h a) s = .next ((s.onEvents e.ctx none (.cancel .cancelled)).retire 8) ∧
      ((s.mod.events.map (fun x => x.key)).Nodup → ∀ x ∈ s.mod.events, x.key.ctx = e.ctx → x.round = none →
        ∃ y, (s.onEvents e.ctx none .purge).ev x.key = some y ∧ y.offers = [] ∧ y.armed = false ∧ y.accepted = [])) ∧
    ((s.g a).extractLsb' 26 38 ≠ 0 → exec (.knotopRd h d a) s = .next (s.trap .illegal) ∧
      exec (.knotopWr h a b) s = .next (s.trap .illegal)) ∧
    ((s.g a).extractLsb' 27 37 ≠ 0 → exec (.knotopPurge h a) s = .next (s.trap .illegal) ∧
      exec (.knotopCancel h a) s = .next (s.trap .illegal))

/-! ## The module's own steps -/

/-- R244, R245, R251: how a choice record answers. CLAIM of an OPEN record is granted; of a record CLAIMED by an
event of lower priority it is held, and that event revoked once; of any other record, and of none, it is refused.
RELEASE and RELEASED let a waiting cancellation take effect, else grant the oldest claim held and refuse the others,
else open the record; a claim held behind another and given up is answered with REFUSE. That a withdrawn record
stays until its last WITHDRAW is log 20. -/
def Sys2Proof.Claims.ClaimsAnswered : Prop :=
  ∀ (s : State) (ro : Nat) (e : EvKey),
    (∀ pr, s.doing = some (.claim ro e pr) →
      ((s.recOf ro = none ∨ ∃ r, s.recOf ro = some r ∧
          ((∃ n, r.state = .done n ∨ r.state = .withdrawn n) ∨ r.state = .parked)) →
        exec .claim s = .next (s.owe (.refuse e ro))) ∧
      (∀ r, s.recOf ro = some r → r.state = .open_ → ∃ t, exec .claim s = .next t ∧ t.pending = s.pending ++ [.grant e ro] ∧
        t.recOf ro = some { r with state := .claimed e pr } ∧ t.r = s.r ∧ t.mod.events = s.mod.events ∧ SameBytes s t) ∧
      (∀ r f q, s.recOf ro = some r → r.state = .claimed f q →
        (s.before pr e q f = false → exec .claim s = .next (s.owe (.refuse e ro))) ∧
        (s.before pr e q f = true → ∃ t, exec .claim s = .next t ∧
          t.pending = s.pending ++ (if r.held = [] then [.revoke f ro] else []) ∧
          t.recOf ro = some { r with held := r.held ++ [(e, pr)] } ∧ t.r = s.r ∧ t.mod.events = s.mod.events ∧
          SameBytes s t))) ∧
    (∀ i, i = .release ∧ s.doing = some (.release ro e) ∨ i = .released ∧ s.doing = some (.released ro e) →
      ((s.recOf ro = none ∨ ∃ r, s.recOf ro = some r ∧ (∀ p, r.state ≠ .claimed e p) ∧ ∀ h ∈ r.held, h.1 ≠ e) →
        exec i s = .next s) ∧
      (∀ r, s.recOf ro = some r → (∃ h ∈ r.held, h.1 = e) → ∃ t, exec i s = .next t ∧
        t.pending = s.pending ++ [.refuse e ro] ∧
        t.recOf ro = some { r with held := r.held.filter (fun h => h.1 != e) } ∧ t.r = s.r ∧
        t.mod.events = s.mod.events ∧ SameBytes s t) ∧
      (∀ r p, s.recOf ro = some r → r.state = .claimed e p → (∀ h ∈ r.held, h.1 ≠ e) →
        (∀ c, r.cancel = some c → c.st ≠ .withdrawn → exec i s = .next ((s.finish r c).settleHome e)) ∧
        (∀ c, r.cancel = some c → c.st = .withdrawn → ∃ t, exec i s = .next t ∧
          t.recOf ro = some { r with state := .withdrawn r.alts.length, held := [], cancel := none } ∧
          (∀ a ∈ r.alts, .withdraw a.e ro ∈ t.pending) ∧ (∀ h ∈ r.held, .refuse h.1 ro ∈ t.pending) ∧
          t.r = s.r ∧ SameBytes s t) ∧
        (r.cancel = none → ∀ h, s.firstClaim r.held = some h → ∃ t, exec i s = .next t ∧
          t.pending = s.pending ++ .grant h.1 ro :: (r.held.filter (fun x => x ≠ h)).map (fun x => .refuse x.1 ro) ∧
          t.recOf ro = some { r with state := .claimed h.1 h.2, held := [] } ∧ t.r = s.r ∧ SameBytes s t) ∧
        (r.cancel = none → r.held = [] → r.owner.isTry = false → ∃ t, exec i s = .next t ∧ t.pending = s.pending ∧
          t.recOf ro = some { r with state := .open_ } ∧ t.r = s.r ∧ SameBytes s t)))

/-- R245, R246, R248, R251: COMMIT makes an OPEN record, one CLAIMED by the committing event and one whose WITHDRAW
is still on its way DONE: a waiting task learns the status, the event, the instance and the alternative. A record
that another event has CLAIMED keeps the message as its waiting cancellation. WITHDRAW removes a record's offers
from the event alone; the last one to arrive frees the record, and the waiting task learns WITHDRAWN (log 20). A
tile payload completes its party. -/
def Sys2Proof.Claims.RecordsEnd : Prop :=
  ∀ (s : State),
    (∀ c, s.doing = some (.commit c) →
      (s.recOf c.ro = none → exec .commit s = .next s) ∧
      (∀ r, s.recOf c.ro = some r →
        (∀ f p, r.state = .claimed f p → f ≠ c.e → exec .commit s = .next
          (s.updRec c.ro (fun r => { r with cancel := some c }))) ∧
        ((∃ n, r.state = .done n) ∨ r.state = .parked → exec .commit s = .next s) ∧
        (r.state = .open_ ∨ (∃ p, r.state = .claimed c.e p) ∨ (∃ n, r.state = .withdrawn n) →
          exec .commit s = .next (s.finish r c) ∧
          (∀ id k, r.owner = .wait id → s.task id = some k → k.st = .waiting c.ro → c.st = .occurred →
            s.tileMoves r c = false → ∃ t m, exec .commit s = .next t ∧ t.recOf c.ro = none ∧ t.task id = some m ∧
              m.outcome = some { st := .occurred, ev := c.e.ev, inst := c.inst, alt := c.alt })))) ∧
    (∀ c r id k, s.doing = some (.tilePayload c) → s.recOf c.ro = some r → r.owner = .wait id → s.task id = some k →
      k.st = .waiting c.ro → c.st = .occurred → ∃ t m, exec .tilePayload s = .next t ∧ t.recOf c.ro = none ∧
        t.task id = some m ∧ m.outcome = some { st := .occurred, ev := c.e.ev, inst := c.inst, alt := c.alt }) ∧
    (∀ e ro, s.doing = some (.withdraw e ro) →
      ((∀ r n, s.recOf ro = some r → r.state ≠ .withdrawn n) → ∃ t, exec .withdraw s = .next t ∧
        (∀ x, s.ev e = some x → ∃ y, t.ev e = some y ∧ y.offers = x.offers.filter (fun o => o.ro ≠ ro)) ∧
        (∀ f, f ≠ e → t.ev f = s.ev f) ∧ t.pending = s.pending ∧ t.mod.recs = s.mod.recs ∧ t.r = s.r ∧ SameBytes s t) ∧
      (∀ r n, s.recOf ro = some r → r.state = .withdrawn n → 1 < n → ∃ t, exec .withdraw s = .next t ∧
        (∀ x, s.ev e = some x → ∃ y, t.ev e = some y ∧ y.offers = x.offers.filter (fun o => o.ro ≠ ro)) ∧
        t.recOf ro = some { r with state := .withdrawn (n - 1) } ∧ t.pending = s.pending ∧ t.r = s.r ∧ SameBytes s t) ∧
      (∀ r n id k, s.recOf ro = some r → r.state = .withdrawn n → n ≤ 1 → s.commitOwed ro = false → r.owner = .wait id →
        s.task id = some k → k.st = .waiting ro → ∃ t m o, exec .withdraw s = .next t ∧ t.recOf ro = none ∧
          t.task id = some m ∧ m.outcome = some o ∧ o.st = .withdrawn))

/-- R242, R243, R244, R248: what a knot does. A GRANT or REFUSE of no round, or of a round already released, is not
answered; a GRANT joins the round, and the last one commits every offer that granted, unless an older event
conflicts, or an abort has meanwhile taken a party back, which releases the round (R247); REFUSE and REVOKE give the
round up and release the records in it. A live record's offer joins the event, or is refused FULL and backs off by
itself, doubled from 64 ns, and is not sent again before that is over; an offer to an event with a party on a failed
part ends PEER_FAILED (R271); a deadline that passes times every offer out, and waits while a round is under way;
and a sweep marks the records whose age has reached 2^46. That RELEASE goes also to a record whose answer is on its
way, that the last GRANT waits for an older conflict, and that the sweep is owed again are log 20. -/
def Sys2Proof.Claims.KnotsHear : Prop :=
  ∀ (s : State) (ro : Nat) (e : EvKey),
    (s.doing = some (.grant e ro) →
      ((∀ x d, s.ev e = some x → x.round = some d → ro ∉ d.waiting) → exec .grant s = .next s) ∧
      (∀ x d, s.ev e = some x → x.round = some d → ro ∈ d.waiting →
        (d.released = true → d.waiting.erase ro ≠ [] → ∃ t, exec .grant s = .next t ∧
          t.ev e = some { x with round := some { d with waiting := d.waiting.erase ro } } ∧ t.pending = s.pending ∧
          t.mod.recs = s.mod.recs ∧ t.r = s.r ∧ SameBytes s t) ∧
        (d.released = false → d.waiting.erase ro ≠ [] → ∃ t, exec .grant s = .next t ∧
          t.ev e = some { x with round := some { d with waiting := d.waiting.erase ro, granted := d.granted ++ [ro] } } ∧
          t.pending = s.pending ∧ t.mod.recs = s.mod.recs ∧ t.r = s.r ∧ SameBytes s t) ∧
        (d.released = false → d.waiting.erase ro = [] → s.conflictsOlder x d.pr (d.granted ++ [ro]) = true →
          exec .grant s = .next (s.owe (.grant e ro))) ∧
        (d.released = false → d.waiting.erase ro = [] → s.conflictsOlder x d.pr (d.granted ++ [ro]) = false →
          s.stillParties x (d.granted ++ [ro]) = false → ∃ t, exec .grant s = .next t ∧
            ∀ g ∈ d.granted ++ [ro], .release g e ∈ t.pending) ∧
        (d.released = false → d.waiting.erase ro = [] → s.conflictsOlder x d.pr (d.granted ++ [ro]) = false →
          s.stillParties x (d.granted ++ [ro]) = true → x.desc.combine ≠ .user → ∃ t, exec .grant s = .next t ∧ ∀ o ∈ x.offers, o.ro ∈ d.granted ++ [ro] →
            ∃ c, .commit c ∈ t.pending ∧ c.ro = o.ro ∧ c.alt = o.alt ∧ c.e = e ∧ c.inst = x.inst))) ∧
    (s.doing = some (.refuse e ro) →
      ((∀ x d, s.ev e = some x → x.round = some d → ro ∉ d.waiting) → exec .refuse s = .next s) ∧
      (∀ x d, s.ev e = some x → x.round = some d → ro ∈ d.waiting → d.released = false → ∃ t, exec .refuse s = .next t ∧
        (∀ g ∈ d.granted ++ d.waiting.erase ro, .release g e ∈ t.pending) ∧
        (d.waiting.erase ro ≠ [] → t.ev e = some { x with round := some { d with
          waiting := d.waiting.erase ro, granted := [], released := true } }))) ∧
    (s.doing = some (.revoke e ro) →
      ((∀ x d, s.ev e = some x → x.round = some d → d.released = true ∨ ro ∉ d.waiting ∧ ro ∉ d.granted) →
        exec .revoke s = .next s) ∧
      (∀ x d, s.ev e = some x → x.round = some d → ro ∈ d.granted ++ d.waiting → d.released = false →
        ∃ t, exec .revoke s = .next t ∧ .released ro e ∈ t.pending ∧
          ∀ g ∈ d.granted ++ d.waiting, g ≠ ro → .release g e ∈ t.pending)) ∧
    (∀ alt, s.doing = some (.fullBackoff ro alt) → s.backsOff ro alt = true →
      exec .fullBackoff s = .next (s.owe (.fullBackoff ro alt))) ∧
    (∀ i alt, i = .offer ∧ s.doing = some (.offer ro alt) ∨
        i = .fullBackoff ∧ s.doing = some (.fullBackoff ro alt) ∧ s.backsOff ro alt = false →
      ∀ r a x, s.recOf ro = some r → r.live = true → r.owner.arity = none → r.alts[alt]? = some a → s.ev a.e = some x →
        (s.offerCheck x r = .ok → (∃ p ∈ x.peers, p ∈ s.mod.failed) → ∃ t, exec i s = .next t ∧
          t.pending = s.pending ++ [.commit { ro := ro, alt := alt, e := a.e, inst := x.inst, st := .peerFailed, bs := [] }] ∧
          t.mod.events = s.mod.events ∧ t.r = s.r ∧ SameBytes s t) ∧
        (s.offerCheck x r = .ok → (∀ p ∈ x.peers, p ∉ s.mod.failed) →
          (x.round ≠ none ∨ x.desc.kind = .counted ∧ x.armed = false) →
          ∃ t y o, exec i s = .next t ∧ t.ev a.e = some y ∧ y.offers = x.offers ++ [o] ∧ o.ro = ro ∧ o.alt = alt ∧
            o.stamp = r.stamp ∧ o.bytes = a.bytes ∧ t.r = s.r ∧ SameBytes s t) ∧
        (s.offerCheck x r = .full → ∃ t b, exec i s = .next t ∧ t.pending = s.pending ++ [.fullBackoff ro alt] ∧
          (r.backoffOf alt = none → b = 64) ∧ (∀ y, r.backoffOf alt = some y → 0 < y.1 → b = min (2 * y.1) 16000) ∧
          t.recOf ro = some { r with backoff := (alt, b, s.time + b) :: r.backoff.filter (fun y => y.1 ≠ alt) } ∧
          t.mod.events = s.mod.events ∧ t.r = s.r ∧ SameBytes s t)) ∧
    (s.doing = some (.deadline e) → ∀ x t₀, s.ev e = some x → x.clock = some t₀ → ∃ t, exec .deadline s = .next t ∧
      t₀ + 1000 * x.desc.deadline ≤ t.time ∧
      (x.round = none → t.ev e = some
          { x with offers := [], clock := none, ending := none, armed := false, need := 0, engine := [] } ∧
        ∀ o ∈ x.offers, .commit { ro := o.ro, alt := o.alt, e := e, inst := x.inst, st := .timeout, bs := [] } ∈ t.pending) ∧
      (x.round ≠ none → t.ev e = some { x with ending := some (.cancel .timeout) } ∧ t.pending = s.pending)) ∧
    (∀ k, s.doing = some (.agedSweep k) → ∃ t, exec .agedSweep s = .next t ∧ t.r = s.r ∧ t.mod.events = s.mod.events ∧
      ∀ r ∈ s.mod.recs, (∃ a ∈ r.alts, s.knotOf a.e = k) → .agedSweep k ∈ t.pending ∧
        ((2 ^ 46 : Int) ≤ s.age r.stamp → { r with aged := true } ∈ t.mod.recs)) ∧
    (∃ t, exec .offer s = .next t) ∧ (∃ t, exec .grant s = .next t) ∧ (∃ t, exec .revoke s = .next t) ∧
    (∃ t, exec .refuse s = .next t) ∧ (∃ t, exec .fullBackoff s = .next t) ∧ (∃ t, exec .tilePayload s = .next t) ∧
    (∃ t, exec .deadline s = .next t) ∧ (∃ t, exec .withdraw s = .next t) ∧ (∃ t, exec .commit s = .next t) ∧
    (∃ t, exec .claim s = .next t) ∧ (∃ t, exec .release s = .next t) ∧ (∃ t, exec .released s = .next t) ∧
    (∃ t, exec .agedSweep s = .next t)

/-- R340, R363, R364: HCLR clears the error counts and the poison count; a power window records its power, falls a
clock step above CAP down to the floor and regains one at or below it, and trips above 3,300 W; a junction at 110 °C
trips; a trip sets TRIP; a window update writes HEOL first and each monitor's word at 0x100. The steps of the power
cap and of its trip are read by log 33, the numbers of the lines that a scrub finds by log 22. -/
def Sys2Proof.Claims.HealthSteps : Prop :=
  ∀ (s : State),
    (s.doing = some .hclrEcc → exec .hclrEcc s = .next
      { s with mod := { s.mod with health := { s.mod.health with eccDram := 0, eccSram := 0 } } }) ∧
    (s.doing = some .hclrPoison → exec .hclrPoison s = .next
      { s with mod := { s.mod with health := { s.mod.health with hpoison := 0, hpaddr := 0 } } }) ∧
    (∀ w, s.doing = some (.powerCapWindow w) → ∃ t, exec .powerCapWindow s = .next t ∧
      t.mod.health.pwr = BitVec.ofNat 16 w ∧ t.mod.health.cap = s.mod.health.cap ∧ t.mod.health.step = s.mod.health.step ∧
      (s.mod.health.cap.toNat < w → s.mod.health.capSteps + s.mod.health.step.toNat < 8 →
        t.mod.health.capSteps = s.mod.health.capSteps + 1) ∧
      (w ≤ s.mod.health.cap.toNat → t.mod.health.capSteps = s.mod.health.capSteps - 1) ∧
      (3300 < w → .thermalTrip ∈ t.pending) ∧ (w ≤ 3300 → t.pending = s.pending) ∧ t.r = s.r ∧ SameBytes s t) ∧
    (∀ tj, s.doing = some (.thermalThrottle tj) → ∃ t, exec .thermalThrottle s = .next t ∧
      (tj < 256 → t.mod.health.tj = BitVec.ofNat 8 tj) ∧ (110 ≤ tj → .thermalTrip ∈ t.pending) ∧
      (100 ≤ tj → tj < 110 → s.mod.health.capSteps + s.mod.health.step.toNat < 8 →
        t.mod.health.step = s.mod.health.step + 1 ∧ t.mod.health.hevt.getLsbD 2 = true) ∧
      (95 ≤ tj → tj < 100 → t.mod.health.step = s.mod.health.step) ∧
      (tj < 95 → t.mod.health.step = if s.mod.health.step = 0 then 0 else s.mod.health.step - 1) ∧ SameBytes s t) ∧
    (∀ line, s.doing = some (.patrolScrub line .clean) → line < 2 ^ 32 → exec .patrolScrub s = .next s) ∧
    (∀ line dram, s.doing = some (.patrolScrub line (.corrected dram)) → line < 2 ^ 32 → ∃ t, exec .patrolScrub s = .next t ∧
      (dram = true → t.mod.health.eccDram.toNat = min (s.mod.health.eccDram.toNat + 1) 0xFFFFFFFF ∧
        t.mod.health.eccSram = s.mod.health.eccSram) ∧
      (dram = false → t.mod.health.eccSram.toNat = min (s.mod.health.eccSram.toNat + 1) 0xFFFFFFFF ∧
        t.mod.health.eccDram = s.mod.health.eccDram) ∧ t.r = s.r ∧ SameBytes s t) ∧
    (∀ line, s.doing = some (.patrolScrub line .poisoned) → line < 2 ^ 32 → line ∉ s.mod.poison →
      ∃ t, exec .patrolScrub s = .next t ∧ t.mod.poison = s.mod.poison ++ [line] ∧
        t.mod.health.hpoison = s.mod.health.hpoison + 1 ∧ t.mod.health.hevt.getLsbD 1 = true ∧ SameBytes s t) ∧
    (∀ die mon margin, s.doing = some (.monitorSample die mon margin) → monitorThere die mon = true → 5 * die + mon < 25 →
      margin < 65536 → ∃ t, exec .monitorSample s = .next t ∧
        (∀ i (h : i < 25), i = 5 * die + mon → t.mod.health.mons[i].now = BitVec.ofNat 16 margin) ∧
        (∀ i (h : i < 25), i ≠ 5 * die + mon → t.mod.health.mons[i] = s.mod.health.mons[i]) ∧
        (margin < 8192 → t.mod.health.hevt.getLsbD 0 = true) ∧ t.r = s.r ∧ SameBytes s t) ∧
    (s.doing = some .healthWindowUpdate → ∃ t, exec .healthWindowUpdate s = .next t ∧
      t.mod.health.window.read 0 8 = natBytes 8 s.mod.health.heol.toNat ∧
      t.mod.health.window.read 0x100 8 = natBytes 8 (s.mod.health.hmon 0 0).toNat ∧ t.r = s.r ∧ SameBytes s t) ∧
    (s.doing = some .thermalTrip → ∃ t, exec .thermalTrip s = .next t ∧ t.mod.health.trip = true) ∧
    (∃ t, exec .thermalTrip s = .next t)

/-- R350, R351: a lane that fails its margin takes a link in mode 0 to mode 1; in mode 1 to mode 2 with a half whose
lanes are all good, else down to mode 3; in mode 2 a carrying lane takes it down, and its peer's timeout starts. A
replay counts RETRY, saturating; a retrain, only while no event with parties on either part has a round under way,
brings a link back to mode 0, and the pages that a failed peer backed still trap. A party down for 50 µs has failed.
That a carrying lane of mode 2 takes the link down, that a retrain waits, and that pages of a failed peer still trap
are log 33. -/
def Sys2Proof.Claims.LinkSteps : Prop :=
  ∀ (s : State) (n : Nat) (l : Link), s.link n = some l →
    (∀ lane, s.doing = some (.laneMarginFail n lane) → lane < 8 → ∃ t m, exec .laneMarginFail s = .next t ∧ t.link n = some m ∧
      m.peer = l.peer ∧ m.retry = l.retry ∧
      (l.mode = 0 → m.mode = 1 ∧ m.lanes = 0xFF) ∧
      (l.mode = 1 → (l.bad ||| (1#8 <<< lane)) &&& 0x0F = 0 → m.mode = 2 ∧ m.lanes = 0x0F) ∧
      (l.mode = 1 → (l.bad ||| (1#8 <<< lane)) &&& 0x0F ≠ 0 → (l.bad ||| (1#8 <<< lane)) &&& 0xF0 = 0 →
        m.mode = 2 ∧ m.lanes = 0xF0) ∧
      (l.mode = 1 → (l.bad ||| (1#8 <<< lane)) &&& 0x0F ≠ 0 → (l.bad ||| (1#8 <<< lane)) &&& 0xF0 ≠ 0 →
        m.mode = 3 ∧ .linkTimeout l.peer.toNat ∈ t.pending) ∧
      (l.mode = 2 → l.lanes &&& (1#8 <<< lane) ≠ 0 → m.mode = 3 ∧ .linkTimeout l.peer.toNat ∈ t.pending) ∧
      (l.mode = 2 → l.lanes &&& (1#8 <<< lane) = 0 → m.mode = 2 ∧ m.lanes = l.lanes) ∧
      (l.mode = 3 → m = { l with margin := m.margin }) ∧ (∀ k, k ≠ n → t.link k = s.link k) ∧ t.r = s.r ∧ SameBytes s t) ∧
    (s.doing = some (.linkStepDone n) → ∃ t, exec .linkStepDone s = .next t ∧ t.link n = some { l with step := none } ∧
      (∀ k, k ≠ n → t.link k = s.link k) ∧ t.r = s.r ∧ SameBytes s t) ∧
    (s.doing = some (.flitReplay n) → l.mode ≠ 3 → ∃ t, exec .flitReplay s = .next t ∧
      t.link n = some { l with retry := if l.retry = 0xFFFF then l.retry else l.retry + 1 } ∧
      (∀ k, k ≠ n → t.link k = s.link k) ∧ t.r = s.r ∧ SameBytes s t) ∧
    (∀ p, s.doing = some (.linkRetrain n p) → p < 0xFFFF →
      ((∃ x ∈ s.mod.events, (l.peer.toNat ∈ x.peers ∨ p ∈ x.peers) ∧ x.round ≠ none) → exec .linkRetrain s = .next s) ∧
      ((∀ x ∈ s.mod.events, l.peer.toNat ∈ x.peers ∨ p ∈ x.peers → x.round = none) → ∃ t m, exec .linkRetrain s = .next t ∧
        t.link n = some m ∧ m.mode = 0 ∧ m.lanes = 0xFF ∧ m.peer = BitVec.ofNat 16 p ∧ m.down = none ∧ p ∉ t.mod.failed ∧
        (p ∈ s.mod.failed → ∀ g ∈ s.mappedPages p, g ∈ t.mod.lostPages) ∧
        (∀ k, k ≠ n → t.link k = s.link k) ∧ t.r = s.r ∧ SameBytes s t)) ∧
    (∀ p t₀, s.doing = some (.linkTimeout p) → s.partyDown p = some t₀ → (∀ x ∈ s.mod.events, p ∉ x.peers) →
      ∃ t, exec .linkTimeout s = .next t ∧ (∀ k, k ∈ t.mod.failed ↔ k ∈ s.mod.failed ∨ k = p) ∧
        t.time = max s.time (t₀ + 50000) ∧ t.mod.events = s.mod.events ∧ t.r = s.r ∧ SameBytes s t) ∧
    (∀ p, s.doing = some (.linkTimeout p) → s.partyDown p = none → exec .linkTimeout s = .next s) ∧
    (∀ p, s.doing = some (.linkTimeout p) → ∃ t, exec .linkTimeout s = .next t) ∧
    (s.doing = some .hostLinkDown → ∃ t, exec .hostLinkDown s = .next t ∧ t.mod.hostDown ≠ none)

/-- R129, R206 to R218, R238, R255 to R263, R290 to R365: the steps of cores, engines, launch queues, text path,
mailbox, service core and fabric complete from every state: whatever they are asked for, the machine goes on. -/
def Sys2Proof.Claims.UnitStepsComplete : Prop :=
  ∀ (s : State) (i : Instr),
    i ∈ [Instr.remoteRequest, .remoteReply, .budgetExpiry, .combiningLineTimeout, .taskDispatch, .steal, .handlerActivation,
      .copyJob, .jobTranslationResume, .collective, .abortColl, .collectiveDeadline, .userRoutine, .userRoutineOverrun, .txeJob,
      .txdJob, .vocabJob, .pageWalk, .textFrame, .tokenChunk, .missingFrameTimeout, .openNotice, .endNotice, .dropNotice,
      .detokeniseChunk, .kick, .launchAccept, .launchStart, .launchComplete, .reset, .ctxCreate, .ctxDestroy, .queueCfg,
      .launchEnd, .textAttach, .vocabLoad] ∨
    i ∈ [Instr.trackStart, .harvest, .quiesce, .save, .load, .resume, .ckpt, .ckptLoad, .recover, .trapnext, .retry, .kill,
      .host, .preempt, .preemptResume, .registerWrite, .interrupt, .placementGeneration, .packetResend, .agePromotion,
      .cxlMemWrite, .cxlMemRead, .heartwoodBoot, .getReport, .setTenantKey, .getIdentity, .globalAccessPerformed,
      .globalAccessReply, .ultraEthernetMessage, .unassignedOpcode] →
    (∃ t, exec i s = .next t) ∧ (i ≠ .unassignedOpcode → s.doing = none → exec i s = .next s)

/-- R257, R321, R322: the steps that name a core or a die complete for every one that the module has. -/
def Sys2Proof.Claims.PlacementStepsComplete : Prop :=
  ∀ (s : State),
    (∀ rk c, s.doing = some (.graft rk c) → c < 0x8000 → ∃ t, exec .graft s = .next t) ∧
    (∀ c, s.doing = some (.coreFailure c) → c < 0x8000 → ∃ t, exec .coreFailure s = .next t) ∧
    (∀ d, s.doing = some (.stageEvaluation d) → d < 4 → ∃ t, exec .stageEvaluation s = .next t)

/-- R206 to R218, R256, R257: what engines' steps do. A discarded job only shows its slot done; a job that is not
live takes no step; a copy whose rows are all done ends; the last byte of a row read from the rank's own buffer
makes the row ready to be written, and changes no memory; the last byte of a row that no tap follows advances PROG
and ends the row. A collective whose blocks disagree, or that an engine has told to abort, ends with every member's
job done and the sequence number advanced. -/
def Sys2Proof.Claims.EngineSteps : Prop :=
  ∀ (s : State),
    (∀ id j, s.doing = some (.copyJob id) → s.job id = some j → j.st = .done → exec .copyJob s = .next (s.mirror j)) ∧
    (∀ id j, s.doing = some (.copyJob id) → s.job id = some j → j.st = .held ∨ j.st = .stopped ∨ j.st = .guarded ∨ j.st = .deferred →
      exec .copyJob s = .next s) ∧
    (∀ id j, s.doing = some (.copyJob id) → s.job id = some j → j.st = .running → (copyRec j.record).rows ≤ j.prog →
      ∃ t k, exec .copyJob s = .next t ∧ t.job id = some k ∧ k.st = .done) ∧
    (∀ id j b off i x, s.doing = some (.copyJob id) → s.job id = some j → j.st = .running →
      0 < (copyRec j.record).len → j.prog < (copyRec j.record).rows → (copyRec j.record).src = some (.own b off) →
      j.filled = false → j.reads = [i] → s.readAt j (copyRec j.record) i = .got x →
      ∃ t k, exec .copyJob s = .next t ∧ t.job id = some k ∧ k.filled = true ∧ k.prog = j.prog ∧
        k.left.map (fun y => y.1) = List.range (copyRec j.record).len ∧ SameBytes s t) ∧
    (∀ id j b off i x, s.doing = some (.copyJob id) → s.job id = some j → j.st = .running → j.kind = .copy →
      0 < (copyRec j.record).len → j.prog < (copyRec j.record).rows → (copyRec j.record).dst = some (.own b off) →
      j.filled = true → j.left = [(i, x)] → j.res = none →
      ∃ t k, exec .copyJob s = .next t ∧ t.job id = some k ∧ k.prog = j.prog + 1 ∧ k.filled = false ∧ k.left = []) ∧
    (∀ e x run j js, s.doing = some (.collective e) → s.ev e = some x → x.coll = some run → run.aborting = false →
      s.collJobs run = j :: js → (∀ k ∈ j :: js, k.st ≠ .stopped ∧ k.st ≠ .held) →
      (∃ k ∈ js, (collBlk k.record).key ≠ (collBlk j.record).key) →
      ∃ t y, exec .collective s = .next t ∧ t.ev e = some y ∧ y.cseq = (x.cseq + 1) % 2 ^ 32 ∧
        ∀ k ∈ j :: js, ∃ l, t.job k.id = some l ∧ l.st = .done) ∧
    (∀ e x run, s.doing = some (.abortColl e) → s.ev e = some x → x.coll = some run → run.aborting = true →
      ∃ t y, exec .abortColl s = .next t ∧ t.ev e = some y ∧ y.cseq = (x.cseq + 1) % 2 ^ 32 ∧
        ∀ k ∈ s.collJobs run, ∃ l, t.job k.id = some l ∧ l.st = .done)

/-- R304, R307, R312, R313, R315, R364: what a queue's steps do. After a trip nothing is accepted or started; an
empty queue accepts nothing; a record that is read, accepted or rejected, moves HEAD on by one; a launch of no ranks
starts and owes its completion; one whose ranks have their cores starts with a ready entry task at each; one without
room stays waiting, its start owed again; a launch that is not done does not complete, and one that is done ends and
raises its vector when it asks for it. -/
def Sys2Proof.Claims.LaunchSteps : Prop :=
  ∀ (s : State),
    (∀ ctx q, s.doing = some (.launchAccept ctx q) → s.mod.health.trip = true → exec .launchAccept s = .next s) ∧
    (∀ ctx q c, s.doing = some (.launchAccept ctx q) → s.ctx ctx = some c → (c.queue q).head = (c.queue q).tail →
      exec .launchAccept s = .next s) ∧
    (∀ ctx q c b, s.doing = some (.launchAccept ctx q) → s.ctx ctx = some c → (c.queue q).cfg = true →
      (c.queue q).busy = false → s.mod.health.trip = false → (c.queue q).head ≠ (c.queue q).tail →
      (s.liveLaunches ctx).length < 16 →
      s.table ctx ((c.queue q).base + 256 * ((c.queue q).head.toNat % 2 ^ (c.queue q).lg)) 256 = some b →
      ∃ t d, exec .launchAccept s = .next t ∧ t.ctx ctx = some d ∧ (d.queue q).head = (c.queue q).head + 1 ∧
        (d.queue q).tail = (c.queue q).tail) ∧
    (∀ id l, s.doing = some (.launchStart id) → s.launch id = some l → l.st = .waiting → s.mod.health.trip = true →
      exec .launchStart s = .next s) ∧
    (∀ id l c, s.doing = some (.launchStart id) → s.launch id = some l → l.st = .waiting → s.mod.health.trip = false →
      (s.firstReady s.mod.launches).map (fun m => m.id) = some id → (s.readPartition l.ctx).ctx l.ctx = some c →
      ∃ t k, exec .launchStart s = .next t ∧ t.launch id = some k ∧
        if l.decl.nrank = 0 then k.st = .started ∧ k.tstart = s.time ∧ .launchComplete id ∈ t.pending
        else match (s.readPartition l.ctx).place c l.decl with
          | none => k.st = .waiting ∧ .launchStart id ∈ t.pending
          | some placed => k.st = .started ∧ k.tstart = s.time ∧
              ∀ p ∈ placed, ∃ x ∈ t.mod.tasks, x.rank = { launch := id, rank := p.1 } ∧ x.core = p.2 ∧
                x.readySeq.isSome = true) ∧
    (∀ id l, s.doing = some (.launchComplete id) → s.launch id = some l → l.st = .started → s.launchDone l = false →
      exec .launchComplete s = .next s) ∧
    (∀ id l, s.doing = some (.launchComplete id) → s.launch id = some l → l.st = .started → s.launchDone l = true →
      ∃ t k, exec .launchComplete s = .next t ∧ t.launch id = some k ∧ k.st = .ended ∧
        (l.decl.irq = true → l.ctx < 64 → t.mod.msix.getLsbD l.ctx = true))

/-- R76, R290 to R295: what the text path's steps do. A frame for a context without a text path is discarded with a
FRAME report; an open notice gives the request its reply state, with nothing emitted; a chunk that occurred moves
the request on to its next chunk; a text without tokens is answered by one last frame, and is over; and a chunk of
no open request, or of a dropped one, emits nothing. -/
def Sys2Proof.Claims.TextSteps : Prop :=
  ∀ (s : State),
    (∀ ctx p bs c, s.doing = some (.textFrame ctx p bs) → s.ctx ctx = some c → c.text = none →
      exec .textFrame s = .next (s.reportFrame ctx (frameOf bs).req)) ∧
    (∀ n, s.doing = some (.openNotice n) → ∃ t r, exec .openNotice s = .next t ∧ r ∈ t.mod.replies ∧ r.id = n.id ∧
      r.ctx = n.ctx ∧ r.req = n.req ∧ r.maxtok = n.maxtok ∧ r.raddr = n.raddr ∧ r.emitted = 0 ∧ r.seq = 0 ∧ r.next = 0 ∧
      r.dropped = false ∧ t.mod.outs = s.mod.outs) ∧
    (∀ id x, s.doing = some (.tokenChunk id) → s.textAt id = some x →
      ∃ t y, exec .tokenChunk s = .next t ∧ t.textAt id = some y ∧ y.chunk = x.chunk + 1) ∧
    (∀ id, s.doing = some (.missingFrameTimeout id) → (∀ x, s.textAt id = some x → x.missing = false) →
      exec .missingFrameTimeout s = .next s) ∧
    (∀ id r, s.doing = some (.endNotice id) → s.replyAt id = some r →
      ∃ t, exec .endNotice s = .next t ∧ t.replyAt id = none ∧ t.textAt id = none ∧
        t.mod.outs = s.mod.outs ++ [.frame r.job r.process (replyFrame r r.seq true [])]) ∧
    (∀ e x b a as, s.doing = some (.detokeniseChunk e) → s.ev e = some x → x.binding = some b → b.queue = a :: as →
      (∀ r, s.replyOf e.ctx a.req = some r → r.dropped = true) →
      ∃ t, exec .detokeniseChunk s = .next t ∧ t.mod.outs = s.mod.outs)

/-- The mailbox will serve a command of a tag now: firmware runs, no trip stands, and no other command is served
(R300, R344, R364). -/
def Sys2Proof.Machine.State.Serves (s : State) (tag : Nat) : Prop :=
  s.mod.boot.state = 1 ∧ s.mod.health.trip = false ∧ (s.mod.mailbox.busy = true → s.mod.mailbox.tag = tag)

/-- What the mailbox answers a command (R300). -/
def Sys2Proof.Machine.State.Answers (t : State) (tag status : Nat) : Prop :=
  t.mod.mailbox.busy = false ∧ t.mod.mailbox.tag = tag ∧ t.mod.mailbox.status = status ∧ t.mod.msix.getLsbD 64 = true

/-- R300, R301, R331, R357: saving, loading and pre-emption. A command on a context that is not allocated is
answered BADARG, a SAVE of a context that is not quiesced DENIED, a LOAD from an address that holds no area (MAGIC,
VERSION) BADARG; a refused PREEMPT write changes nothing; an accepted one asks every core that it names, and one
that resumes, or RESUME, leaves none of them pre-empted. -/
def Sys2Proof.Claims.SaveSteps : Prop :=
  ∀ (s : State),
    (∀ tag id, s.doing = some (.quiesce tag id) → s.Serves tag → s.ctx id = none →
      ∃ t, exec .quiesce s = .next t ∧ t.Answers tag 2) ∧
    (∀ tag id pa, s.doing = some (.save tag id pa) → s.Serves tag → s.ctx id = none →
      ∃ t, exec .save s = .next t ∧ t.Answers tag 2 ∧ SameBytes s t) ∧
    (∀ tag id pa c, s.doing = some (.save tag id pa) → s.Serves tag → s.ctx id = some c → c.quiesced = false →
      ∃ t, exec .save s = .next t ∧ t.Answers tag 4 ∧ SameBytes s t) ∧
    (∀ tag pa desc, s.doing = some (.load tag pa desc) → s.Serves tag → s.savedAt pa = none →
      ∃ t, exec .load s = .next t ∧ t.Answers tag 2 ∧ t.mod.ctxs = s.mod.ctxs ∧ SameBytes s t) ∧
    (∀ tag id c, s.doing = some (.resume tag id) → s.Serves tag → s.ctx id = some c → id < 64 →
      s.mod.preempt.getLsbD 63 = true → ∃ t, exec .resume s = .next t ∧ t.Answers tag 0 ∧
        ∀ k ∈ c.cores, id ∉ (t.sched k).preempted) ∧
    (∀ v, s.doing = some (.preempt v) ∨ s.doing = some (.preemptResume v) → s.preemptRefused v = true →
      exec .preempt s = .next s ∧ exec .preemptResume s = .next s) ∧
    (∀ v, s.doing = some (.preempt v) → s.preemptRefused v = false → ∃ t, exec .preempt s = .next t ∧
      ∀ k ∈ s.preemptCores v, (v.extractLsb' 0 6).toNat ∈ (t.sched k).asked ∨
        (v.extractLsb' 0 6).toNat ∈ (t.sched k).preempted) ∧
    (∀ v, s.doing = some (.preemptResume v) → s.preemptRefused v = false → ∃ t, exec .preemptResume s = .next t ∧
      ∀ k ∈ s.preemptCores v, (v.extractLsb' 0 6).toNat ∉ (t.sched k).preempted)

/-- R297, R299, R321, R323, R324, R326, R336, R340, R343, R344, R348: what some of these steps do: host reads and
writes of device memory; a BAR's reserved ranges, which read as zero and ignore writes; a kick with a reserved bit
or more records than the ring holds moves no pointer; an interrupt enters at TVEC with code 0; a page walk that
nothing asked for any more changes nothing; a generation advances by one; a resent packet backs off in [16, 2,048)
cycles; a promotion happens once; and a key of the right length is accepted for an allocated context. That host
bytes are moved whole, and which BAR ranges read and write what, is the model's reading (logs 8, 28, 31). -/
def Sys2Proof.Claims.OutsideInputs : Prop :=
  ∀ (s : State),
    (∀ pa n, s.doing = some (.cxlMemRead pa n) → pa + n ≤ 2 ^ 38 → exec .cxlMemRead s = .next
      { s with mod := { s.mod with outs := s.mod.outs ++ [.hostData (s.mem.read pa n)] } }) ∧
    (∀ pa bs, s.doing = some (.cxlMemWrite pa bs) → pa + bs.length ≤ 2 ^ 38 → ∃ t, exec .cxlMemWrite s = .next t ∧
      (∀ i (h : i < bs.length), t.mem.get (pa + i) = bs[i]) ∧ t.r = s.r ∧ t.rank = s.rank) ∧
    (∀ ctx q v c, s.doing = some (.kick ctx q v) → s.ctx ctx = some c →
      v.extractLsb' 48 13 ≠ 0 ∨ v.extractLsb' 16 16 ≠ 0 → exec .kick s = .next (s.refuseKick ctx q)) ∧
    (∀ ctx q v c, s.doing = some (.kick ctx q v) → s.ctx ctx = some c → v.getLsbD 63 = false →
      2 ^ (c.queue q).lg < (v.setWidth 16 - (c.queue q).head : BitVec 16).toNat →
      exec .kick s = .next (s.refuseKick ctx q)) ∧
    (∀ ctx q c, s.ctx ctx = some c → ∃ d, (s.refuseKick ctx q).ctx ctx = some d ∧ (d.queue q).err = true ∧
      (d.queue q).head = (c.queue q).head ∧ (d.queue q).tail = (c.queue q).tail) ∧
    (∀ bar word v, s.doing = some (.barWrite bar word v) →
      bar = 0 → 0x40000 ≤ 8 * word ∧ 8 * word < 0x100000 ∨ 0x101000 ≤ 8 * word ∧ 8 * word < 0x300000 ∨
        0x308000 ≤ 8 * word → exec .kick s = .next s) ∧
    (∀ off n, s.doing = some (.barRead 0 off n) →
      0x40000 ≤ off ∧ off + n ≤ 0x100000 ∨ 0x101000 ≤ off ∧ off + n ≤ 0x200000 ∨ 0x308010 ≤ off →
      exec .cxlMemRead s = .next
        { s with mod := { s.mod with outs := s.mod.outs ++ [.hostData (List.replicate n 0)] } }) ∧
    (∀ core, s.doing = some (.interrupt core) → (s.focus core).interrupted = true →
      exec .interrupt s = .next ((s.focus core).enterTrap 0 (s.focus core).r.pc 0)) ∧
    (∀ die ctx page, s.doing = some (.pageWalk die ctx page) →
      (∀ w ∈ s.mod.walks, w.die = die → w.ctx = ctx → w.page ≠ page) → exec .pageWalk s = .next s) ∧
    (s.doing = some .placementGeneration → ∃ t, exec .placementGeneration s = .next t ∧
      t.mod.generation = s.mod.generation + 1 ∧ s.time ≤ t.time ∧ t.r = s.r ∧ SameBytes s t) ∧
    (∀ id p, s.doing = some (.packetResend id) → s.mod.packets.find? (fun p => p.id = id) = some p →
      ∃ t q, exec .packetResend s = .next t ∧ q ∈ t.mod.packets ∧ q.id = id ∧ q.refusals = p.refusals + 1 ∧
        min 1024 (16 * 2 ^ p.refusals) ≤ q.backoff ∧ q.backoff < 2 * min 1024 (16 * 2 ^ p.refusals) ∧ t.r = s.r ∧
        SameBytes s t) ∧
    (∀ id, s.doing = some (.agePromotion id) → (∃ p ∈ s.mod.packets, p.id = id ∧ p.promoted = true) →
      exec .agePromotion s = .next s) ∧
    (∀ id key c, s.doing = some (.setTenantKey id key) → s.ctx id = some c → key.length = keyLen →
      ∃ t d, exec .setTenantKey s = .next t ∧ t.ctx id = some d ∧ d.key = some key ∧
        t.mod.outs = s.mod.outs ++ [.mctp [0]] ∧ t.r = s.r ∧ SameBytes s t)

/-! ## Memory, reset, and what every step keeps -/

/-- R1, R30: the laws of memory: a byte written is read back, every other byte is as before, the canonical form is
kept, and two memories in that form that read alike at every address are the same data. -/
def Obligations.MemoryLaws : Prop :=
  ∀ (m n : Memory) (a b : Nat) (v : Byte) (bs : List Byte),
    (m.set a v).get a = v ∧ (b ≠ a → (m.set a v).get b = m.get b) ∧
    (∀ i (h : i < bs.length), (m.write a bs).get (a + i) = bs[i]) ∧
    (b < a ∨ a + bs.length ≤ b → (m.write a bs).get b = m.get b) ∧
    (m.wf = true → (m.write a bs).wf = true ∧ (m.clear a b).wf = true) ∧
    (m.wf = true → n.wf = true → (∀ x, m.get x = n.get x) → m = n)

/-- R33, R36, R220, R340, R343, R352, R363, R365: the values that the spec states for reset, with the heartwood
ROM's boot owed and memory in its canonical form. The spec gives the task registers their values at task start: that
the focused core holds them at reset is the model's choice (log 1, DESIGN CHOICE); that the ROM's step is owed at
reset and that the focused core is in supervisor mode is read from R343 and R220 (log 13, DEDUCED). -/
def Obligations.ResetState : Prop :=
  State.reset.wf ∧ State.reset.pending = [.heartwoodBoot .verify] ∧
    State.reset.r.fe = true ∧ State.reset.r.fpflags = 0 ∧ State.reset.r.evstat = 0 ∧ State.reset.r.fstat = 0 ∧
    State.reset.r.coinseed = 0 ∧ State.reset.r.segseq = 0 ∧ State.reset.r.mxflag = 0 ∧
    (∀ i (h : i < 4), State.reset.r.mx[i] = 0 ∧ State.reset.r.q[i] = []) ∧
    (∀ i (h : i < 8), State.reset.r.tcfg[i] = 0 ∧ State.reset.r.t[i] = { bytes := [], side := Vector.replicate 16 0x3F800000#32 } ∧
      State.reset.r.c[i] = [] ∧ State.reset.rank.wins[i] = 0) ∧
    State.reset.supervisor = true ∧ State.reset.run.sup.ppriv = true ∧ State.reset.run.sup.ie = false ∧
    State.reset.run.sup.pie = false ∧
    (∀ i (h : i < 64), State.reset.mod.ctxRegs[i].ptbase = 0 ∧ State.reset.mod.ctxRegs[i].fmtbase = 0 ∧
      State.reset.mod.ctxRegs[i].budget = 100 ∧ State.reset.mod.ctxRegs[i].partition = 0 ∧ State.reset.mod.ctxRegs[i].vqbase = 0) ∧
    (∀ i (h : i < 12), State.reset.mod.links[i].mode = 3 ∧ State.reset.mod.links[i].peer = 0xFFFF ∧
      State.reset.mod.links[i].retry = 0) ∧
    State.reset.mod.health.cap = 3000 ∧ State.reset.mod.health.hpoison = 0 ∧ State.reset.mod.health.trip = false

/-- Every step keeps the physical memory and the private SRAM in canonical form: from every state, reached or not,
in which equal contents are equal data, a step that goes on ends in such a state. -/
def Obligations.StepKeepsMemoryCanonical : Prop :=
  ∀ (s t : State), s.wf → step s = .next t → t.wf

/-! ## Statements of several parts -/

/-- R106, R107, R110, R111: Integer, immediate, MOVL and PCREL results, modulo 2^64, with their frame. -/
def Obligations.IntegerResults : Prop :=
  Claims.IntegerResults ∧
    Claims.ImmediateResults

/-- R88, R90, R97, R99, R100, R120: The checks of a fetch, and the trap of an unassigned opcode. -/
def Obligations.FetchChecks : Prop :=
  Claims.FetchChecks ∧
    Claims.UnassignedOpcodesTrapIllegal

/-- R23, R100, R126, R129, R340, R361: What else a step can do: interrupts, fetch traps, and steps owed (turns, time
and deadlocks by hazard: logs 4, 5 and 15). -/
def Obligations.StepTakesOtherTurns : Prop :=
  Claims.StepTakesOtherTurns ∧
    Claims.StepRunsStepsOwed

/-- R33, R115, R220, R325, R340, R352, R362, R363: CSRR of every task-level and supervisor CSR (TRAPNEXT: O15). -/
def Obligations.CsrReads : Prop :=
  Claims.TaskCsrReads ∧
    Claims.SupervisorCsrReads

/-- R28, R33, R34, R35, R36, R40, R115, R116, R340: CSRW, CSRS and CSRC of the task-level CSRs, and the checks of a
CSR number. -/
def Obligations.TaskCsrWrites : Prop :=
  Claims.TaskCsrWrites ∧
    Claims.CsrNumbersChecked ∧
    Claims.ReadOnlyCsrWritesIgnored

/-- R116, R220, R325, R326, R328, R329, R331, R340, R352, R363: CSRW, CSRS and CSRC of the supervisor CSRs, TRAPNEXT
among them (access by the model's logs 11 and 24 where no table gives it). -/
def Obligations.SupervisorCsrWrites : Prop :=
  Claims.SupervisorCsrWrites ∧
    Claims.TrapnextPops

/-- R121, R122, R123, R124: Hardware loops: the end test with one counter and with two, LOOP, and the loop-end
check. -/
def Obligations.Loops : Prop :=
  Claims.LoopSetsUpItsCounter ∧
    Claims.LoopEndCheck ∧
    Claims.EndTestOfOneCounter ∧
    Claims.EndTestOfTwoCounters ∧
    Claims.NoEndTestElsewhere

/-- R16, R18, R125, R126, R128: GSET and GKILL resolve guards, QPUT and QGET move queue entries, held commands block
reads. -/
def Obligations.GuardsAndQueues : Prop :=
  Claims.GuardsResolve ∧
    Claims.QueueMoves ∧
    Claims.HeldCommandsBlockReads

/-- R170, R171, R172, R173, R174, R187: Integer lane operations, with a vector or an immediate. -/
def Obligations.VectorIntegerResults : Prop :=
  Claims.VectorIntegerResults ∧
    Claims.VectorImmediateResults

/-- R41, R42, R43, R44, R45, R175, R176: Special cases of floating operations, and representable values under
rounding. -/
def Obligations.FloatingRounding : Prop :=
  Claims.SpecialFloatingCases ∧
    Claims.RepresentableValuesRoundToThemselves

/-- R112, R171, R177, R179: VCMP and the mask operations. -/
def Obligations.VectorComparesAndMasks : Prop :=
  Claims.VectorCompares ∧
    Claims.MaskOperations

/-- R172, R178, R180, R185, R188: Select, lane moves and pairwise sums. -/
def Obligations.LaneMoves : Prop :=
  Claims.LaneMoves ∧
    Claims.PairwiseAdd

/-- R46, R47, R52, R181, R182: VCVT, scaled and unscaled, and its amax observations. -/
def Obligations.VectorConversions : Prop :=
  Claims.VectorConversions ∧
    Claims.ConversionsObserveAmax

/-- R130, R183, R184, R187, R337: VLD, VST, VGATH and VSCAT. -/
def Obligations.VectorGlobalAccesses : Prop :=
  Claims.VectorGlobalAccesses ∧
    Claims.GatherAndScatter

/-- R129, R131, R132, R133, R134, R337: LD and LD.AQ, at once or posted (which of the two: the model's reading, log
16). -/
def Obligations.GlobalLoads : Prop :=
  Claims.GlobalLoads ∧
    Claims.FarLoadsArePosted

/-- R31, R132, R133, R134: ST and ST.RL, and that a task sees its own stores. -/
def Obligations.GlobalStores : Prop :=
  Claims.GlobalStores ∧
    Claims.OwnStoresAreSeen

/-- R30, R130, R131, R134, R336, R366: The traps of scalar global accesses, and the check of a page. -/
def Obligations.GlobalChecks : Prop :=
  Claims.GlobalAccessTraps ∧
    Claims.PageChecks

/-- R130, R131, R135, R136: AMO and CAS, and their traps. -/
def Obligations.Atomics : Prop :=
  Claims.Atomics ∧
    Claims.AtomicTraps

/-- R35, R134, R144, R145, R146, R147: Fences and releases complete or wait, and prefetches change nothing a program
sees. -/
def Obligations.Fences : Prop :=
  Claims.Fences ∧
    Claims.FencesWait ∧
    Claims.Prefetches

/-- R28, R29, R148, R149: WINSET, WINCLR, and what a window admits. -/
def Obligations.Windows : Prop :=
  Claims.WindowWrites ∧
    Claims.WindowAdmission

/-- R139, R140, R141, R142, R143, R366: LDX, STX, STX.T, AMOX and MCST: checks, and what is sent. -/
def Obligations.RemoteAccesses : Prop :=
  Claims.RemoteRequests ∧
    Claims.TryRemoteStore ∧
    Claims.MulticastStores

/-- R12, R81, R124, R150, R151, R152: The checks of an event operand, and waits where no task runs (the model's
choice, log 2). -/
def Obligations.EventOperandChecks : Prop :=
  Claims.EventOperandChecks ∧
    Claims.WaitsOutsideTasks

/-- R20, R21, R22, R23, R153, R157, R158, R197, R198: EVW, CHOOSE.W, CDRAIN.W and CRECV.W end the segment and offer.
-/
def Obligations.WaitsOffer : Prop :=
  Claims.EvwOffers ∧
    Claims.ChooseOffersEveryAlternative ∧
    Claims.DrainsOffer

/-- R164, R165, R257, R304, R307, R312, R313, R315, R321, R322, R364: YIELD makes the task ready again, END frees
it, and how launches start, are placed and complete. -/
def Obligations.YieldAndEnd : Prop :=
  Claims.YieldMakesReady ∧
    Claims.EndFreesTheTask ∧
    Claims.LaunchSteps ∧
    Claims.PlacementStepsComplete

/-- R155, R158, R199: Tries stall for their answer, then report it. -/
def Obligations.Tries : Prop :=
  Claims.TriesTakeTheirAnswer ∧
    Claims.TriesCheckTheirEvent

/-- R14, R84, R159, R160, R161, R163, R166, R169: SIGNAL, ARM, BIND, UNBIND and SPAWN are deferred, and EVSEQ reads
an event. -/
def Obligations.DeferredEffects : Prop :=
  Claims.DeferredEffects ∧
    Claims.SpawnDefersItsTcb ∧
    Claims.EventSequence

/-- R24, R57, R149, R326, R329: A trap on a compute core aborts the segment and undoes it. -/
def Obligations.SegmentAborts : Prop :=
  Claims.TrapsAbortSegments ∧
    Claims.AbortsUndoWindows

/-- R5, R219, R220, R340: TRAP and BRK, and where a trap on a root-controller core goes (PRIV and IE after it:
inferred, log 42). -/
def Obligations.TrapEntry : Prop :=
  Claims.TrapsEnterAtTvec ∧
    Claims.TrapAndBreak

/-- R53, R54, R191, R192, R193, R337, R338: TLD and TST place and store rows in the layout in use (the address of an
ALIGN by STRIDE: log 14). -/
def Obligations.TileAccesses : Prop :=
  Claims.TileLoads ∧
    Claims.TileStores

/-- R194, R196, R201, R202: TZERO, TTR, CZERO, CLD, CST, MXR and MXCLR. -/
def Obligations.TileAndAccumulatorMoves : Prop :=
  Claims.TileClearsAndTransposes ∧
    Claims.AccumulatorMoves

/-- R55, R56, R57, R63, R65, R67, R69, R203, R204, R205, R206: SKINIT, the four SKADDs and SKMERGE, and their traps.
-/
def Obligations.SummaryUpdates : Prop :=
  Claims.SummaryUpdates ∧
    Claims.SummaryTraps

/-- R208, R209, R211, R213, R214, R215, R217, R218, R212, R216, R256, R257: CPY, CPY.T, CPYSK, TXE, TXD, VOCAB and
COLL enter their queues, or trap, or stall, and what the steps of engines do. -/
def Obligations.EngineIssues : Prop :=
  Claims.JobsAreIssued ∧
    Claims.CollIsDeferred ∧
    Claims.IssueTraps ∧
    Claims.EngineSteps

/-- R222, R223, R224, R225, R335, R300, R301, R331, R344, R357, R364: XLINV, CTXSAVE, CTXLOAD, KNOTOP and IDLE, and
the commands that save, load and pre-empt. -/
def Obligations.SupervisorOperations : Prop :=
  Claims.TranslationInvalidation ∧
    Claims.SupervisorOperations ∧
    Claims.KnotOperations ∧
    Claims.SaveSteps

/-- R241, R242, R243, R244, R245, R246, R247, R248, R251, R271: How choice records and knots answer each other
(order of messages and records: the model's reading, log 20). -/
def Obligations.ChoiceRecords : Prop :=
  Claims.ClaimsAnswered ∧
    Claims.RecordsEnd ∧
    Claims.KnotsHear

/-- R340, R350, R351, R352, R361, R362, R363, R364: Health, power, temperature and link steps (the power and link
rules read by log 33, line numbers by log 22). -/
def Obligations.HealthAndLinks : Prop :=
  Claims.HealthSteps ∧
    Claims.LinkSteps

/-- R76, R290, R293, R295, R297, R298, R299, R323, R324, R336, R340, R348: The steps of every other unit complete;
text path, host and fabric steps (BAR and device memory read by logs 8, 28, 31). -/
def Obligations.UnitSteps : Prop :=
  Claims.UnitStepsComplete ∧
    Claims.OutsideInputs ∧
    Claims.TextSteps
end

