-- ==== Sys2Proof/Laws/Ops.lean ====
section
/-! SUPPORT. One lemma for each shared operation that says what it can do: the scalar forms, the qualifier, retiring, and
what the operations of Machine/Ops.lean leave of memory. -/

namespace Sys2Proof.Machine

/-! ## The qualifier and the scalar forms -/

theorem scalarStep_true {h : Hdr} {s : State} (len : Nat) (f : State → State) (q : s.qual h = true) :
    scalarStep h len f s = .next ((f s).retire len) := by rw [scalarStep, if_pos q]
theorem scalarStep_false {h : Hdr} {s : State} (len : Nat) (f : State → State) (q : s.qual h = false) :
    scalarStep h len f s = .next (s.retire len) := by rw [scalarStep, if_neg (by rw [q]; exact Bool.false_ne_true)]
theorem checkedStep_true {h : Hdr} {s : State} (len : Nat) (f : State → State) (q : s.qual h = true) :
    checkedStep h len f s = .next (f s) := by rw [checkedStep, if_pos q]
theorem checkedStep_false {h : Hdr} {s : State} (len : Nat) (f : State → State) (q : s.qual h = false) :
    checkedStep h len f s = .next (s.retire len) := by rw [checkedStep, if_neg (by rw [q]; exact Bool.false_ne_true)]

/-- Writing a g register touches nothing else. -/
theorem OnlyG.setG_retire (s : State) (d : GReg) (x : Word) (len : Nat) : OnlyG s ((s.setG d x).retire len) := by
  unfold OnlyG State.setG State.retire
  generalize endTest _ _ _ = e
  split <;> rfl
/-- Writing a predicate touches nothing else. -/
theorem OnlyP.setP_retire (s : State) (d : PReg) (x : Bool) (len : Nat) : OnlyP s ((s.setP d x).retire len) := by
  unfold OnlyP State.setP State.retire
  generalize endTest _ _ _ = e
  split <;> rfl
theorem Retired.setG (s : State) (d : GReg) (x : Word) (len : Nat) : Retired s ((s.setG d x).retire len) len := by
  refine ⟨?_, ?_, rfl⟩
  · rw [State.retire_pc, State.setG_r_lc, State.setG_r_pc]
  · rw [State.retire_lc, State.setG_r_lc, State.setG_r_pc]
theorem Retired.setP (s : State) (d : PReg) (x : Bool) (len : Nat) : Retired s ((s.setP d x).retire len) len := by
  refine ⟨?_, ?_, rfl⟩
  · rw [State.retire_pc, State.setP_r_lc, State.setP_r_pc]
  · rw [State.retire_lc, State.setP_r_lc, State.setP_r_pc]
theorem SameBytes.of_eq {s t : State} (m : t.mem = s.mem) (r : t.sram = s.sram) (k : t.rank = s.rank) : SameBytes s t :=
  ⟨fun a => by rw [m], fun a => by rw [r], fun b a => by rw [k]⟩
/-- An instruction whose meaning is a scalar form that writes one g register gives that register its result. -/
theorem GivesG.of_scalarStep {i : Instr} {h : Hdr} {d : GReg} {len : Nat} {s : State} (f : State → Word)
    (e : exec i s = scalarStep h len (fun s => s.setG d (f s)) s) (q : s.qual h = true) : GivesG s i d (f s) len := by
  refine ⟨(s.setG d (f s)).retire len, by rw [e, scalarStep_true _ _ q], ?_, ?_, Retired.setG .., OnlyG.setG_retire ..,
    SameBytes.of_eq ?_ ?_ ?_⟩
  · rw [State.g_retire, State.g_setG_self]
  · intro j hj
    rw [State.g_retire, State.g_setG_ne s d j (f s) hj]
  · rw [State.retire_mem, State.setG_mem]
  · rw [State.retire_sram, State.setG_sram]
  · rw [State.retire_rank, State.setG_rank]
/-- The same for one predicate register. -/
theorem GivesP.of_scalarStep {i : Instr} {h : Hdr} {d : PReg} {s : State} (f : State → Bool)
    (e : exec i s = scalarStep h 8 (fun s => s.setP d (f s)) s) (q : s.qual h = true) : GivesP s i d (f s) := by
  refine ⟨(s.setP d (f s)).retire 8, by rw [e, scalarStep_true _ _ q], ?_, ?_, Retired.setP .., OnlyP.setP_retire ..,
    SameBytes.of_eq ?_ ?_ ?_⟩
  · rw [State.p_retire, State.p_setP_self]
  · intro j hj
    rw [State.p_retire, State.p_setP_ne s d j (f s) hj]
  · rw [State.retire_mem, State.setP_mem]
  · rw [State.retire_sram, State.setP_sram]
  · rw [State.retire_rank, State.setP_rank]

end Sys2Proof.Machine
end

