-- ==== Sys2Proof/Tests/Slice0.lean ====
section
/-! SUPPORT. Tests: ill-formed terms that WellFormed refuses, words written out from the spec's encodings, small steps, and
for every statement with hypotheses a state and operands that meet them. -/

open Sys2Proof Sys2Proof.Machine

namespace Sys2Proof.Tests

/-! ## Small states -/

/-- An unconditional header without a guard. -/
abbrev h0 : Hdr := ⟨0, false, none⟩
/-- The header of an instruction that never executes (R91). -/
abbrev hNever : Hdr := ⟨0, true, none⟩
/-- A root-controller core that runs in supervisor mode, with nothing else that could happen. -/
abbrev root : State := State.reset.alone
/-- A compute core that runs, with nothing around it. -/
abbrev core : State :=
  { State.reset with
    core := 0
    pending := []
    run := { Run.fresh .compute with on := true } }
/-- A state with one g register set. -/
abbrev withG (s : State) (d : GReg) (x : Word) : State := s.setG d x
/-- A TCB of rank 0. -/
abbrev aTcb : Tcb :=
  { entry := 0x1000, prio := 0, handler := false, gang := true, migrate := false, rank := 0, live := 0, foot := [],
    succ := [], budget := 100, arg := [] }
/-- Its task, running on core 0. -/
abbrev aTask : Task :=
  { id := 0, rank := ⟨0, 0⟩, ctx := 0, core := 0, slot := 0, tcb := aTcb, saved := Regs.reset, st := .running,
    resume := false, outcome := none, wait := none, hold := false, drainFlags := 0, act := none, visitor := false, kept := 0,
    offered := Vector.replicate 32 0 }
/-- A context with a group row 1 of ranks 0 and 1 of launch 0. -/
abbrev aCtx : Ctx :=
  { id := 0, desc := [], mctbase := 0, routbase := 0, uejob := 0, dirtybase := 0, clusters := [],
    groups := [{ row := 1, launch := 0, ranks := [0, 1] }], key := none, mrv := 0, mrl := 0, nvoc := 0, nlnc := 0,
    vocab := Vector.replicate 4 [], text := none,
    queues := Vector.replicate 4 { cfg := false, base := 0, lg := 0, prio := 0, head := 0, tail := 0, busy := false, err := false },
    quiesced := false }
/-- A launch of two ranks. -/
abbrev aLaunch : Launch :=
  { id := 0, ctx := 0, q := 0, index := 0
    decl := { nrank := 2, runOnCancel := false, irq := false, tcb := aTcb, gbase := 0, groups := [], descs := [], ebase := 0,
              nevent := 0, crec := 0, armev := [], waitev := [], sigev := [], binds := [], hints := [], images := [], fmts := [] }
    st := .started, waits := 0, tstart := 0, segs := 0, traps := 0, lost := 0 }
/-- A counted event without payload. -/
abbrev aDesc : Desc :=
  { kind := .counted, combine := .none, cls := .none, elem := .raw, bytes := 0, group := 1, arg := 0, deadline := 0, knot := 0,
    scope := .core }
/-- An event of context 0. -/
abbrev anEvent (n : Nat) (d : Desc) : EvState :=
  { key := ⟨0, n⟩, launch := none, desc := d, inst := 7, armed := false, need := 1, offers := [], clock := none,
    round := none, binding := none, cseq := 0, coll := none, engine := [], user := [], ending := none, armer := none,
    peers := [], moving := false }
/-- A core that runs the task, in a module that holds an event of each shape the statements use: 1 counted, 2 a group event
with an inline payload, 3 a paired drain, 4 a binding event, 5 a binding event that rank 0 holds. -/
abbrev busy : State :=
  { core with mod := { core.mod with
    tasks := [aTask]
    ctxs := [aCtx]
    launches := [aLaunch]
    events := [anEvent 1 aDesc, anEvent 2 { aDesc with kind := .group, combine := .sum, cls := .inline, elem := .i32, bytes := 16 },
      anEvent 3 { aDesc with kind := .group, combine := .drainAdd, cls := .tile, elem := .f32, bytes := 1024 },
      anEvent 4 { aDesc with kind := .binding },
      { anEvent 5 { aDesc with kind := .binding } with binding := some {
          rank := ⟨0, 0⟩, entry := 0, depth := 1, prio := 0, queue := [], running := [], stage := none, engine := false,
          standing := true, held := false } }] } }
/-- A translated core with one cached leaf, for page 0 of context 0. -/
abbrev mapped (leaf : Word) : State := { core with mod := { core.mod with tlb := [{ ctx := 0, page := 0, leaf := leaf }] } }
/-- A remote request on its way. -/
abbrev aRequest : RemoteReq :=
  { src := ⟨0, 0, ⟨0, 0⟩⟩, pc := 0, tgt := ⟨0, 1⟩, buf := .w, off := 0, op := .load .d 2, id := 0, at_ := 0, cast := none }
/-- A job of task 0. -/
abbrev aJob : Job :=
  { id := 0, kind := .copy, task := 0, ctx := 0, rank := ⟨0, 0⟩, core := 0, no := 0, record := [], ea := 0, prog := 0,
    st := .queued, cev := none, dropped := false, by_ := { pc := 0, ord := 0, bits := [], src := 0, seq := 0 }, reads := [],
    got := [], left := [], filled := false, lost := [], gone := [], written := 0, capped := false, image := [], marks := [],
    res := none, key := none, halt := none }
/-- The task is a handler. -/
abbrev inHandler (s : State) : State := { s with mod := { s.mod with tasks := [{ aTask with tcb := { aTcb with handler := true } }] } }

/-! ## Well-formedness -/

/-- R91, R97: ADD takes no guard. -/
theorem test_wf_guard : WellFormed (.add ⟨0, false, some 1⟩ 1 2 3) = false := by decide
/-- R109: n of SEXT and ZEXT is 1 to 64. -/
theorem test_wf_ext : WellFormed (.sext h0 1 2 0) = false ∧ WellFormed (.zext h0 1 2 65) = false ∧
    WellFormed (.zext h0 1 2 64) = true := by decide
/-- R109: a width of 0, and lsb + width above 64. -/
theorem test_wf_field : WellFormed (.bfx h0 1 2 3 0) = false ∧ WellFormed (.bfi h0 1 2 1 64) = false ∧
    WellFormed (.bfi h0 1 2 0 64) = true := by decide
/-- R97: the remote forms and MCST do not name buffer C. -/
theorem test_wf_remote_buffer : WellFormed (.ldx h0 .c .w 1 2 3 0) = false ∧ WellFormed (.stx h0 .c .w 1 2 3 0) = false ∧
    WellFormed (.stxT h0 .c .w 1 2 3 0) = false ∧ WellFormed (.mcst h0 .c .w 1 2 3 0) = false := by decide
/-- R97: AMOX does not name buffer C. -/
theorem test_wf_amox_buffer : WellFormed (.amoxAdd h0 .c 0 1 2 3 4 0) = false ∧ WellFormed (.amoxAnd h0 .c 0 1 2 3 4 0) = false ∧
    WellFormed (.amoxOr h0 .c 0 1 2 3 4 0) = false ∧ WellFormed (.amoxXor h0 .c 0 1 2 3 4 0) = false ∧
    WellFormed (.amoxMin h0 .c 0 1 2 3 4 0) = false ∧ WellFormed (.amoxMax h0 .c 0 1 2 3 4 0) = false ∧
    WellFormed (.amoxMinu h0 .c 0 1 2 3 4 0) = false ∧ WellFormed (.amoxMaxu h0 .c 0 1 2 3 4 0) = false ∧
    WellFormed (.amoxSwap h0 .c 0 1 2 3 4 0) = false := by decide
/-- R97: the count of CHOOSE is 1 to 8. -/
theorem test_wf_choose : WellFormed (.chooseW h0 0 1 0 0) = false ∧ WellFormed (.chooseT h0 9 1 0) = false ∧
    WellFormed (.chooseT h0 8 1 0) = true := by decide
/-- R97: ARM with n = 0. -/
theorem test_wf_arm : WellFormed (.armImm h0 1 0 0) = false := by decide
/-- R166: BIND with depth 0. -/
theorem test_wf_bind : WellFormed (.bind h0 1 0 2 0) = false := by decide
/-- R174: a byte lane takes an immediate below 256. -/
theorem test_wf_vector_immediate : WellFormed (.vaddi h0 .b 1 2 256 0) = false ∧ WellFormed (.vsubi h0 .b 1 2 256 0) = false ∧
    WellFormed (.vmini h0 .b 1 2 256 0) = false ∧ WellFormed (.vmaxi h0 .b 1 2 256 0) = false ∧
    WellFormed (.vminui h0 .b 1 2 256 0) = false ∧ WellFormed (.vmaxui h0 .b 1 2 256 0) = false ∧
    WellFormed (.vandi h0 .b 1 2 256 0) = false ∧ WellFormed (.vori h0 .b 1 2 256 0) = false ∧
    WellFormed (.vxori h0 .b 1 2 256 0) = false ∧ WellFormed (.vandni h0 .b 1 2 256 0) = false := by decide
/-- R174: a shift count stays below the lane width. -/
theorem test_wf_vector_count : WellFormed (.vshli h0 .b 1 2 8 0) = false ∧ WellFormed (.vshri h0 .h 1 2 16 0) = false ∧
    WellFormed (.vsari h0 .d 1 2 64 0) = false ∧ WellFormed (.vsari h0 .d 1 2 63 0) = true := by decide
/-- R97: the unsigned conditions are for integer lanes. -/
theorem test_wf_vcmp : WellFormed (.vcmp h0 .ltu .f32 1 2 3 0) = false ∧ WellFormed (.vcmp h0 .geu .bf16 1 2 3 0) = false := by
  decide
/-- R96: the lane index stays below the lane count. -/
theorem test_wf_lane_index : WellFormed (.vext h0 .w 1 2 4) = false ∧ WellFormed (.vins h0 .d 1 (.g 2) 2 0) = false := by decide
/-- R97, R181, R46: VCVT of a type to itself, a part that is not there, RDN to an FP8 type, and .INF to another type. -/
theorem test_wf_vcvt : WellFormed (.vcvt h0 .f32 .f32 0 .rne 0 1 2 (.g 0) 0 0 0) = false ∧
    WellFormed (.vcvt h0 .f32 .bf16 2 .rne 0 1 2 (.g 0) 0 0 0) = false ∧
    WellFormed (.vcvt h0 .f32 .e4m3 0 .rdn 0 1 2 (.g 0) 0 0 0) = false ∧
    WellFormed (.vcvt h0 .f32 .e4m3 0 .rne 1 1 2 (.g 0) 0 0 0) = false := by decide
/-- R97: there is no lane code 3 of VGATH and VSCAT. -/
theorem test_wf_gather : WellFormed (.vgath h0 .w .d 1 2 3 0 0) = false ∧ WellFormed (.vscat h0 .w .d 1 2 3 0 0) = false := by
  decide
/-- R185, R96: an integer VHADD has no rounding mode. -/
theorem test_wf_vhadd : WellFormed (.vhadd h0 .w .rtz 1 2 0) = false := by decide
/-- R96: the offset of VXG lies from −3 to +3. -/
theorem test_wf_vxg : WellFormed (.vxg h0 1 2 4 0) = false ∧ WellFormed (.vxg h0 1 2 12 0) = false ∧
    WellFormed (.vxg h0 1 2 13 0) = true := by decide
/-- R97: TST stores to A or to global memory. -/
theorem test_wf_tst : WellFormed (.tst h0 .w 1 2 0 16 .row) = false := by decide
/-- R97, R200: CCVT has no destination I32 and the restrictions of VCVT. -/
theorem test_wf_ccvt : WellFormed (.ccvt h0 .i32 .rne 0 0 1 2 (.g 0) 0 0) = false ∧
    WellFormed (.ccvt h0 .e5m2 .rup 0 0 1 2 (.g 0) 0 0) = false := by decide

/-! ## Words -/

/-- R97 opcode 09: `csrr g5, EVSTAT`. -/
theorem test_decode_csrr : decode 0x2400280024 = .instr (.csrr ⟨0, false, none⟩ 5 0x009) := by decide

/-- R97 opcode 24: `jalr g1, g2, -4`. -/
theorem test_decode_jalr : decode 0xFFFFFFF002080090 = .instr (.jalr ⟨0, false, none⟩ 1 2 0x3FFFFFFC) := by decide

/-- R97 opcode 31: `st.d [g2+16], g3`. -/
theorem test_decode_st : decode 0x1000000180620000C5 = .instr (.st ⟨0, false, none⟩ .d 3 2 16) := by decide

/-- R97 opcode 36: `amo.max.d g1, [g2-8], g3`. -/
theorem test_decode_amo_max : decode 0xFFFFFFF800000580620800D9 = .instr (.amoMax ⟨0, false, none⟩ 1 1 2 3 0xFFFFFFF8) := by decide

/-- R97 opcode 38: `amox.swap.d g1, x:[g3, a:g2+8], g4`. -/
theorem test_decode_amox : decode 0x800001890620800E1 = .instr (.amoxSwap ⟨0, false, none⟩ .a 1 1 3 4 2 8) := by decide

/-- R97 opcode 39: `fence.sys 127, ld`. -/
theorem test_decode_fence : decode 0xFF0200000000E4 = .instr (.fence ⟨0, false, none⟩ .sys 0x7F 1) := by decide

/-- R93, R97 opcode 53: a signal with a payload in C at g4 + 32. -/
theorem test_decode_signal : decode 0x51234500200000A400014D = .instr (.signal ⟨0, false, none⟩ 0x12345 5 (some ⟨true, 4, 32⟩)) := by decide

/-- R97 opcode 58: `bind 0xABCDE+g5, g4, 7`. -/
theorem test_decode_bind : decode 0xABCDE00070000A4000161 = .instr (.bind ⟨0, false, none⟩ 0xABCDE 5 4 7) := by decide

/-- R188: `vxg v2, v1, +1`, the word that the rule gives. -/
theorem test_decode_vxg : decode 0x8000000011001C8 = .instr (.vxg ⟨0, false, none⟩ 2 1 1 0) := by decide

/-- R182: the VCVT word that the rule gives. -/
theorem test_decode_vcvt : decode 0x5401001222801A8 = .instr (.vcvt ⟨0, false, none⟩ .f32 .e4m3 2 .rne 0 5 2 (.g 9) 1 1 0) := by decide

/-- R90: the qualifier p3 negated and the guard k2 on `vadd.w v1, v2, v3, m5`. -/
theorem test_decode_vadd_guarded : decode 0x50100620D4D80 = .instr (.vadd ⟨3, true, some 2⟩ .w 1 2 3 5) := by decide

/-- R94, R97 opcode 91: a TLD from W with STRIDE 128, LAYOUT col and SCALE 01. -/
theorem test_decode_tld : decode 0x8000050040008002080245 = .instr (.tld ⟨0, false, none⟩ .w 1 2 64 128 .col .ones) := by decide

/-- R97 opcode 94: `mma c1, t2, t3`. -/
theorem test_decode_mma : decode 0x62080250 = .instr (.mma ⟨0, false, none⟩ 1 2 3) := by decide

/-- R97 opcode 96: `cld c1, c:[g2+1024]`. -/
theorem test_decode_cld : decode 0x4000000000002080259 = .instr (.cld ⟨0, false, none⟩ 1 2 1024) := by decide

/-- R97 opcode B1: `skqadd c:[g2+4096], v3, m4`. -/
theorem test_decode_skqadd : decode 0x10000010620002C4 = .instr (.skqadd ⟨0, false, none⟩ 3 2 0x1000 4) := by decide

/-- R97 opcode C0: `cpy.t g1, c:[g2+32] if k2`. -/
theorem test_decode_cpy_t : decode 0x200080020D0300 = .instr (.cpyT ⟨0, false, some 2⟩ 1 2 32) := by decide

/-- R219: `trap 5`, the word that the rule gives. -/
theorem test_decode_trap : decode 0x1400000340 = .instr (.trap ⟨0, false, none⟩ 5) := by decide

/-- R97 opcode D2: `eret`. -/
theorem test_decode_eret : decode 0x348 = .instr (.eret ⟨0, false, none⟩) := by decide

/-- R97 opcode D5: `knotop.wr g2, g3`. -/
theorem test_decode_knotop : decode 0x8062000354 = .instr (.knotopWr ⟨0, false, none⟩ 2 3) := by decide

/-- Whether the decoder refuses a word. -/
def refused (w : BitVec 128) : Bool :=
  match decode w with
  | .instr _ => false
  | .illegal _ => true

/-- R95: the c field of ADD is reserved. -/
theorem test_refuse_reserved_bit : refused 0x462080004 = true := by decide

/-- R95: there is no m8. -/
theorem test_refuse_mask_register_8 : refused 0x4001C4 = true := by decide

/-- R91: ALU takes no guard. -/
theorem test_refuse_guard_on_add : refused 0xC8004 = true := by decide

/-- R90: GS must be 000 when GE is 0. -/
theorem test_refuse_slot_without_guard : refused 0x88180 = true := by decide

/-- R88, R92: ALU has 64 bits, not 96. -/
theorem test_refuse_wrong_length : refused 0x80005 = true := by decide

/-- R97: ALU has no fn 32. -/
theorem test_refuse_unlisted_fn : refused 0x100000000004 = true := by decide

/-- R93: PBUF 00 with PV = 1. -/
theorem test_refuse_payload_buffer_w : refused 0x100000000000000000014D = true := by decide

/-- R94: SCALE 11. -/
theorem test_refuse_scale_11 : refused 0xC0000000000000245 = true := by decide

/-- R90, R97: LEN 11 and opcode FF are unassigned opcodes. -/
theorem test_unassigned : decode 0x3 = .instr .unassignedOpcode ∧ decode 0x3FC = .instr .unassignedOpcode := by decide

/-! ## One step on small states -/

/-- R107: `add g1, g2, g2` placed as the first instruction runs, and the PC moves on by 8. -/
theorem test_step_add : ∃ t, step ((withG root 2 0x7FFFFFFFFFFFFFFF).withFetchWord 64 0x42080004) = .next t ∧
    t.g 1 = 0xFFFFFFFFFFFFFFFE ∧ t.r.pc = 8 := ⟨_, rfl, rfl, rfl⟩
/-- R107: a write to g0 is discarded. -/
theorem test_write_g0 : (withG core 0 5).g 0 = 0 := by decide
/-- R108: the quotient by 0 is all ones and the remainder is the dividend. -/
theorem test_division_by_zero : ∃ t u, exec (.div h0 1 2 3) (withG core 2 7) = .next t ∧ t.g 1 = 0xFFFFFFFFFFFFFFFF ∧
    exec (.rem h0 1 2 3) (withG core 2 7) = .next u ∧ u.g 1 = 7 := ⟨_, _, rfl, rfl, rfl, rfl⟩
/-- R109: SEXT of the 8 low bits. -/
theorem test_sext : ∃ t, exec (.sext h0 1 2 8) (withG core 2 0x180) = .next t ∧ t.g 1 = 0xFFFFFFFFFFFFFF80 := ⟨_, rfl, rfl⟩
/-- R91: a false qualifier only retires. -/
theorem test_false_qualifier : ∃ t, exec (.movl hNever 1 5) core = .next t ∧ t.g 1 = 0 ∧ t.r.pc = 16 := ⟨_, rfl, rfl, rfl⟩
/-- R132: a little-endian store and a sign-extending load of its second byte. -/
theorem test_store_load : ∃ t u, exec (.st h0 .h 2 0 64) (withG root 2 0x8001) = .next t ∧ exec (.ld h0 .b 1 0 65) t = .next u ∧
    u.g 1 = 0xFFFFFFFFFFFFFF80 := ⟨_, _, rfl, rfl, rfl⟩
/-- R138: STS and LDS of buffer C. -/
theorem test_buffer : ∃ t u, exec (.sts h0 .c .w 2 0 8) (withG core 2 0xAABBCCDD) = .next t ∧ exec (.lds h0 .c .wu 1 0 8) t = .next u ∧
    u.g 1 = 0xAABBCCDD := ⟨_, _, rfl, rfl, rfl⟩
/-- R135: AMO.ADD returns the old word and stores the sum. -/
theorem test_amo : ∃ t u, exec (.amoAdd h0 0 1 0 2 64) (withG root 2 5) = .next t ∧ t.g 1 = 0 ∧ exec (.ld h0 .w 3 0 64) t = .next u ∧
    u.g 3 = 5 := ⟨_, _, rfl, rfl, rfl, rfl⟩
/-- R219: TRAP at the root controller goes to TVEC with code and operand saved. -/
theorem test_trap : ∃ t, exec (.trap h0 5) root = .next t ∧ t.run.sup.trapaddr = 5 ∧ t.r.pc = root.run.sup.tvec := ⟨_, rfl, rfl, rfl⟩
/-- R170, R173: a byte addition wraps in its lane. -/
theorem test_vadd_wraps : ∃ t, exec (.vadd h0 .b 1 2 2 0) { core with r := { core.r with v := core.r.v.set 2 0x80FF } } = .next t ∧
    t.v 0 1 = 0xFE := ⟨_, rfl, rfl⟩

/-! ## Witnesses: scalar instructions -/

/-- Claims.IntegerResults, Claims.ImmediateResults, Obligations.PredicateResults: an instruction that executes. -/
theorem witness_qualified : core.qual h0 = true ∧ root.qual h0 = true := by decide
/-- Obligations.DivisionResults: each of its cases. -/
theorem witness_division : core.qual h0 = true ∧ core.g 1 = 0 ∧ (withG core 1 0x8000000000000000).g 1 = 0x8000000000000000 ∧
    (withG core 2 0xFFFFFFFFFFFFFFFF).g 2 = 0xFFFFFFFFFFFFFFFF ∧ (withG core 3 5).g 3 ≠ 0 ∧
    ¬((withG core 3 5).g 3 = 0x8000000000000000 ∧ (withG core 3 5).g 3 = 0xFFFFFFFFFFFFFFFF) := by decide
/-- Obligations.BitFormResults: the boundaries of its fields, and a result of 64 and one below. -/
theorem witness_bit_forms : core.qual h0 = true ∧ 1 ≤ (1 : BitVec 7).toNat ∧ (64 : BitVec 7).toNat ≤ 64 ∧
    (63 : BitVec 6).toNat + (1 : BitVec 7).toNat ≤ 64 ∧ (0 : BitVec 6).toNat + (64 : BitVec 7).toNat ≤ 64 := by decide
/-- Obligations.FalseQualifierOnlyRetires: an ADD that never executes, and an ERET in supervisor mode. -/
theorem witness_false_qualifier :
    (Instr.add hNever 1 2 3).hdr? = some hNever ∧ encode (.add hNever 1 2 3) = some 0x62084004 ∧
      lenBytes ((0x62084004 : BitVec 128).extractLsb' 0 2) = some 8 ∧ core.qual hNever = false ∧
      (supervisorOnly (.add hNever 1 2 3) = true → core.supervisor = true) ∧
      supervisorOnly (.eret hNever) = true ∧ root.supervisor = true ∧ root.qual hNever = false ∧ core.atLoopEnd = false := by decide
/-- Obligations.SupervisorInstructionsTrapPriv: ERET at task level. -/
theorem witness_priv : supervisorOnly (.eret h0) = true ∧ core.supervisor = false := by decide
/-- Obligations.DecodeEncodeRoundTrip and Obligations.DecodedWordsReencode. -/
theorem witness_round_trip : WellFormed (.trap h0 5) = true ∧ encode (.trap h0 5) = some 0x0000001400000340 ∧
    decode 0x0000001400000340 = .instr (.trap h0 5) ∧ Instr.trap h0 5 ≠ .unassignedOpcode := by decide
/-- A state of the root controller with bytes placed where it fetches. -/
abbrev fetching (pc : Nat) (w : Nat) : State :=
  { root with r := { root.r with pc := BitVec.ofNat 64 pc }, sram := root.sram.write pc (natBytes 16 w) }
/-- Claims.FetchChecks: the clauses whose reading of LEN is allowed, a crossing of 32 bytes and a fit at its edge among them. -/
theorem witness_fetch : (fetching 0 3).fetchTrap 0 4 = none ∧
    (((fetching 0 3).fetchBytes 0 1).headD 0).extractLsb' 0 2 = 3 ∧
    (fetching 28 0).fetchTrap 28 4 = none ∧ lenBytes ((((fetching 28 0).fetchBytes 28 1).headD 0).extractLsb' 0 2) = some 8 ∧
    32 < (28 : Word).toNat % 32 + 8 ∧ (24 : Word).toNat % 32 + 8 ≤ 32 ∧ (fetching 24 0).fetchTrap 24 8 = none := by decide
/-- Claims.FetchChecks: a fetch from a page that is not there traps. -/
theorem witness_fetch_trap : core.fetchTrap core.r.pc 4 = some { trap := .pageNp, addr := 0 } := by decide
/-- A core's turn, before it does anything. -/
abbrev turn (s : State) : State := { s.advance.focus rootCore with doing := none }
/-- Obligations.StepRunsTheDecodedInstruction: an ADD placed where the root-controller core fetches. -/
theorem witness_step : (fetching 0 0x62080004).advance.choose = some (.core rootCore) ∧
    ((fetching 0 0x62080004).advance.focus rootCore).interrupted = false ∧
    (turn (fetching 0 0x62080004)).pump (turn (fetching 0 0x62080004)).run.held.length = .ok (turn (fetching 0 0x62080004)) ∧
    (turn (fetching 0 0x62080004)).run.ending = none ∧
    (turn (fetching 0 0x62080004)).fetch = .got (.instr (.add h0 1 2 3)) ∧
    ((turn (fetching 0 0x62080004)).touchAll 0 4 false).run.kind ≠ .crown ∧
    ((turn (fetching 0 0x62080004)).touchAll 0 4 false).hazard (.add h0 1 2 3) = .clear ∧
    ((turn (fetching 0 0x62080004)).touchAll 0 4 false).run.held = [] ∧
    ((turn (fetching 0 0x62080004)).touchAll 0 4 false).awaited = [] :=
  ⟨rfl, rfl, rfl, rfl, rfl, by decide, rfl, rfl, rfl⟩
/-- Claims.StepTakesOtherTurns: a segment that is at its end, and a held vector load that reads poison. -/
theorem witness_ending : (turn { root with run := { root.run with ending := some .endTask } }).run.ending ≠ none ∧
    (∃ w x pc, ({ core with
        mod := { core.mod with bufPoison := [(core.rank.key, .w, 0)] }
        run := { core.run with vq := [{
          seq := 0, cmd := .vload 1 [⟨0, 0, .buf .w 0, 0⟩], pc := 8, guard := none, fe := true }] } } :
          State).pump 1 = .stop w x pc) := ⟨by decide, _, _, _, rfl⟩
/-- Claims.StepTakesOtherTurns: an interrupt that is enabled and pending. -/
theorem witness_interrupt :
    (({ root with run := { root.run with sup := { root.run.sup with ie := true, ipend := 2 } } } : State).advance.focus
      rootCore).interrupted = true := rfl
/-- Claims.StepTakesOtherTurns: a word that does not decode, and a failed fetch. -/
theorem witness_other_turns : (∃ why, (fetching 0 0x464080004).fetch = .got (.illegal why)) ∧
    (∃ x, (fetching 28 0).fetch = .trap x) := ⟨⟨_, rfl⟩, ⟨_, rfl⟩⟩
/-- Claims.StepRunsStepsOwed: the heartwood's boot right after reset, and a part in which nothing can happen. -/
theorem witness_owed : State.reset.advance.choose = some (.owed (.heartwoodBoot .verify)) ∧
    ({ root with run := { root.run with on := false } } : State).advance.choose = none := ⟨rfl, rfl⟩
/-- Claims.StepTakesOtherTurns: an ADD that reads a register which a remote request will write, and one that reads a register
which a held VEXT will write. -/
theorem witness_hazards :
    ({ root with run := { root.run with out := [aRequest] } } : State).hazard (.add h0 1 2 3) = .stall ∧
    ({ root with run := { root.run with vq := [{
        seq := 0, cmd := .vext .w 2 0 0, pc := 0, guard := some (0, 0), fe := true }] } } : State).hazard (.add h0 1 2 3) = .blocked ∧
    root.run.kind ≠ .crown := ⟨rfl, rfl, by decide⟩

/-! ## Witnesses: control registers, transfer of control, loops, guards and queue registers -/

/-- Claims.TaskCsrReads: a compute core in a context, at task level, with no command held. -/
theorem witness_csr_reads : busy.qual h0 = true ∧ busy.run.kind = .compute ∧ busy.supervisor = false ∧
    busy.ctx busy.run.ctx = some aCtx ∧ busy.noneHeld := ⟨rfl, rfl, rfl, rfl, rfl, rfl⟩
/-- Claims.SupervisorCsrReads, Claims.SupervisorCsrWrites: the root controller. -/
theorem witness_supervisor_csr : root.qual h0 = true ∧ root.supervisor = true ∧
    ((1 : Word).getLsbD 0 = root.run.sup.priv) := ⟨rfl, rfl, rfl⟩
/-- Claims.SupervisorCsrWrites: the word of STATUS of a state. -/
theorem witness_status_word : (3 : Word).getLsbD 0 = root.run.sup.priv ∧ (3 : Word).getLsbD 1 = root.run.sup.ppriv ∧
    (3 : Word).getLsbD 2 = root.run.sup.ie ∧ (3 : Word).getLsbD 3 = root.run.sup.pie ∧ (3 : Word) >>> 4 = 0 := by decide
/-- A trap report. -/
abbrev aReport : Report := { kind := 0, code := 1, pc := 0, addr := 0, msg := 0, seq := 0, src := 0, task := none }
/-- The root controller with reports queued, and others that wait for room. -/
abbrev withReports (rs ws : List Report) : State := { root with mod := { root.mod with reports := rs, waiting := ws } }
/-- Claims.SupervisorCsrWrites, Claims.SupervisorCsrReads: IPEND while the report queue is empty and while it holds a report, and
the monitors HSEL names first, last, and where there is none. -/
theorem witness_supervisor_words : ((0 : Word).getLsbD 0 = true ↔ root.mod.reports ≠ []) ∧
    (∀ i < 4, 1 ≤ i → (0 : Word).getLsbD i = root.run.sup.ipend.getLsbD i) ∧ (0 : Word) >>> 4 = 0 ∧
    ((1 : Word).getLsbD 0 = true ↔ (withReports [aReport] []).mod.reports ≠ []) ∧
    0 = 5 * root.mod.health.die.toNat + root.mod.health.mon.toNat ∧ root.mod.health.mon.toNat < 5 ∧
    root.mod.health.mon.toNat ≠ (if root.mod.health.die = 4 then 2 else 4) ∧
    (({ root with mod := { root.mod with health := { root.mod.health with die := 4, mon := 2 } } } : State).mod.health.mon.toNat =
      (if (4 : BitVec 3) = 4 then 2 else 4)) := by decide
/-- Claims.CsrNumbersChecked: a number that is no CSR, the first supervisor number at task level, and one that is no
supervisor CSR. -/
theorem witness_csr_numbers : IsCsr (.csrr h0 1 0x007) h0 0x007 1 ∧ (0x007 : BitVec 12).toNat < 0x800 ∧
    (0x007 : BitVec 12).toNat ∉ taskCsrNumbers ∧ 0x800 ≤ (0x800 : BitVec 12).toNat ∧ core.supervisor = false ∧
    root.supervisor = true ∧ (0xFFF : BitVec 12).toNat ∉ supCsrNumbers :=
  ⟨.inl rfl, by decide, by decide, by decide, rfl, rfl, by decide⟩
/-- Claims.ReadOnlyCsrWritesIgnored: CSRW of TIME. -/
theorem witness_csr_read_only : core.qual h0 = true ∧ IsCsr (.csrw h0 0x000 1) h0 0x000 1 ∧
    Instr.csrw h0 0x000 1 ≠ .csrr h0 1 0x000 ∧ core.supervisor = false := ⟨rfl, .inr (.inl rfl), by decide, rfl⟩
/-- Claims.TaskCsrWrites: no command held, windows that may be written; a value with no reserved bit and one with all. -/
theorem witness_csr_writes : core.qual h0 = true ∧ core.noneHeld ∧ core.run.visit = none ∧
    core.g 1 &&& 0xFFFFFFFFFF0000F0 = 0 ∧ (withG core 1 (BitVec.allOnes 64)).g 1 &&& 0xFFFFFFFFFF0000F0 ≠ 0 :=
  ⟨rfl, ⟨rfl, rfl⟩, rfl, rfl, by decide⟩
/-- Claims.TrapnextPops: an empty report queue, and one that holds a report, with none and with one waiting for room. -/
theorem witness_trapnext : root.qual h0 = true ∧ root.supervisor = true ∧ root.mod.reports = [] ∧ root.mod.waiting = [] ∧
    (∃ r rest, (withReports [aReport] []).mod.reports = r :: rest ∧ (withReports [aReport] []).mod.waiting = []) ∧
    ∃ w ws, (withReports [aReport] [aReport]).mod.waiting = w :: ws :=
  ⟨rfl, rfl, rfl, rfl, ⟨_, _, rfl, rfl⟩, _, _, rfl⟩
/-- Obligations.BranchesAndJumps: a condition that holds and one that does not, p0 taken and not, aligned and unaligned targets. -/
theorem witness_branches : Cond.says .eq (core.g 1) (core.g 2) ∧ ¬Cond.says .ne (core.g 1) (core.g 2) ∧
    core.p 0 = ((0 : BitVec 1) == 0) ∧ core.p 0 ≠ ((1 : BitVec 1) == 0) ∧ (core.g 1 + 4).extractLsb' 0 2 = 0 ∧
    (core.g 1 + 2).extractLsb' 0 2 ≠ 0 := ⟨rfl, fun h => h rfl, rfl, by decide, by decide, by decide⟩
/-- Claims.LoopSetsUpItsCounter: no loop ends here; a count of 0, one of 1, one above 32 bits, and the end before and at its
least offset, whose LEN cannot be read on a core without translation. -/
theorem witness_loop : core.atLoopEnd = false ∧ core.g 1 = 0 ∧ (1 : BitVec 16).setWidth 64 = (1 : Word) ∧
    2 ^ 32 ≤ ((withG core 1 0x100000000).g 1).toNat ∧ (2 : BitVec 32).toInt < 3 ∧ 3 ≤ (3 : BitVec 32).toInt ∧
    (∃ x, core.fetchLen 12 = .trap x) ∧ (∃ k, root.fetchLen 12 = .len k) :=
  ⟨rfl, rfl, rfl, by decide, by decide, by decide, ⟨_, rfl⟩, ⟨_, rfl⟩⟩
/-- Two loop counters. -/
abbrev counters (c₀ c₁ : BitVec 32) (s₀ s₁ e₀ e₁ : Word) : Vector Lc 2 :=
  #v[{ count := c₀, reload := 5, s := s₀, e := e₀ }, { count := c₁, reload := 5, s := s₁, e := e₁ }]
/-- Claims.EndTestOfOneCounter: one counter ends at the PC, the other does not. -/
theorem witness_end_test_one : (counters 2 0 8 0 64 64)[(0 : Fin 2)].isSet = true ∧ (counters 2 0 8 0 64 64)[(0 : Fin 2)].count ≠ 0 ∧ (counters 2 0 8 0 64 64)[(0 : Fin 2)].e = 64 ∧
    ¬((counters 2 0 8 0 64 64)[1 - (0 : Fin 2)].count ≠ 0 ∧ (counters 2 0 8 0 64 64)[1 - (0 : Fin 2)].e = 64) := by decide
/-- Claims.EndTestOfTwoCounters: both end at the PC; lc0 is inner by its start, lc1 by the tie; and the three outcomes. -/
theorem witness_end_test_two : (counters 2 1 16 8 64 64)[0].isSet = true ∧ (counters 2 1 16 8 64 64)[0].count ≠ 0 ∧ (counters 2 1 16 8 64 64)[1].count ≠ 0 ∧
    (counters 2 1 16 8 64 64)[(1 : Fin 2)].s.toNat < (counters 2 1 16 8 64 64)[(0 : Fin 2)].s.toNat ∧
    (counters 1 1 8 8 64 64)[(0 : Fin 2)].s = (counters 1 1 8 8 64 64)[(1 : Fin 2)].s ∧
    (counters 2 1 16 8 64 64)[0].count - 1 ≠ 0 ∧ (counters 1 2 16 8 64 64)[0].count - 1 = 0 ∧
    (counters 1 2 16 8 64 64)[1].count - 1 ≠ 0 ∧ (counters 1 1 8 8 64 64)[1].count - 1 = 0 := by decide
/-- Claims.NoEndTestElsewhere: an idle counter and one that ends elsewhere, and a counter that no LOOP has set up. -/
theorem witness_no_end_test :
    (∀ i : Fin 2, (counters 0 3 0 0 64 72)[i].count = 0 ∨ (counters 0 3 0 0 64 72)[i].e ≠ 64) ∧
    (counters 2 0 0 0 0 0)[(0 : Fin 2)].isSet = false := by decide
/-- R123: with lc1 inner and its last pass over, the outer counter goes on and the inner one is loaded again. -/
theorem test_nested_loops : endTest (counters 2 1 8 16 64 64) 64 72 =
    (#v[{ count := 1, reload := 5, s := 8, e := 64 }, { count := 5, reload := 5, s := 16, e := 64 }], 8) := by decide
/-- Claims.LoopEndCheck: an END where an active counter ends. -/
theorem witness_loop_end : notAtLoopEnd (.endTask h0) ∧
    ({ core with r := { core.r with pc := 12, lc := counters 1 0 0 0 12 0 } } : State).atLoopEnd = true :=
  ⟨.inr (.inr (.inr (.inl ⟨h0, rfl⟩))), rfl⟩
/-- A held mask command, bound to the current generation of k1. -/
abbrev heldMask : QEntry := { seq := 0, cmd := .mset 1 0xFFFF, pc := 8, guard := some (1, core.r.k[1].gen), fe := true }
/-- Claims.GuardsResolve: nothing bound to the slot, no command held, and one held mask command. -/
theorem witness_guards : core.qual h0 = true ∧ core.issuesOf 1 = [] ∧ core.noneHeld ∧
    ({ core with run := { core.run with vq := [heldMask] } } : State).run.vq = [heldMask] ∧
    ({ core with run := { core.run with vq := [heldMask] } } : State).issuesOf 1 = [] ∧
    heldMask.guard = some (1, core.r.k[(1 : KReg).toNat].gen) ∧ core.run.gang = none :=
  ⟨rfl, rfl, ⟨rfl, rfl⟩, rfl, rfl, rfl, rfl⟩
/-- Claims.QueueMoves: a queue register that is empty, one that is full, one that holds a word, free roles and broken ones. -/
theorem witness_queues : core.qual h0 = true ∧ core.noneHeld ∧ core.run.qrole[0].writer = none ∧ core.run.qrole[0].reader = none ∧
    core.r.q[0] = [] ∧ core.r.q[0].length < 8 ∧
    8 ≤ (({ core with r := { core.r with q := #v[List.replicate 8 0, [1], [], []] } } : State).r.q[0]).length ∧
    (({ core with r := { core.r with q := #v[List.replicate 8 0, [1], [], []] } } : State).r.q[1]) = 1 :: [] ∧
    (∃ x, ({ core with run := { core.run with qrole := Vector.replicate 4 ⟨some .vector, some .matrix⟩ } } : State).run.qrole[0].writer =
      some x ∧ x ≠ .scalar) ∧
    (∃ x, ({ core with run := { core.run with qrole := Vector.replicate 4 ⟨some .vector, some .matrix⟩ } } : State).run.qrole[0].reader =
      some x ∧ x ≠ .scalar) :=
  ⟨rfl, ⟨rfl, rfl⟩, rfl, rfl, rfl, by decide, by decide, rfl, ⟨_, rfl, by decide⟩, ⟨_, rfl, by decide⟩⟩
/-- A held floating command that may set FPFLAGS. -/
abbrev heldFp (g : Option (KReg × BitVec 16)) : QEntry :=
  { seq := 0, cmd := .vfp .add .f32 .rne 1 2 3 0, pc := 8, guard := g, fe := true }
/-- Claims.HeldCommandsBlockReads: one that waits for its guard, and one that nothing but its turn keeps back. -/
theorem witness_held_flags : Res.fpflags ∈ (heldFp none).writes ∧
    ({ core with run := { core.run with vq := [heldFp (some (1, 0))] } } : State).draining = false ∧
    ({ core with run := { core.run with vq := [heldFp none] } } : State).draining = true := by decide

/-! ## Witnesses: vectors -/

/-- Every statement about a vector or matrix command: it executes, unguarded, with no command held; the core has no poison. -/
theorem witness_open : core.openFor h0 ∧ root.openFor h0 ∧ core.clean ∧ root.clean :=
  ⟨⟨rfl, rfl, rfl, rfl⟩, ⟨rfl, rfl, rfl, rfl⟩, ⟨rfl, rfl, rfl, rfl⟩, ⟨rfl, rfl, rfl, rfl⟩⟩
/-- A part none of whose links has a peer. -/
theorem linked_of_unwired (s : State) (host : s.mod.hostDown = none) (links : ∀ l ∈ s.mod.links.toList, l.peer = 0xFFFF) :
    s.linked := by
  intro pa
  have none_down : s.linkDown (Config.backing (pa / 2 ^ 16)) = false := by
    unfold State.linkDown
    split
    · simp [host]
    · rename_i h
      have : s.mod.links.toList.filter (fun l => l.peer.toNat == Config.backing (pa / 2 ^ 16)) = [] := by
        refine List.filter_eq_nil_iff.mpr fun l hl => ?_
        rw [links l hl]
        exact fun e => h (by simpa using (beq_iff_eq.mp e).symm)
      rw [this]
      rfl
  unfold State.waitsLink
  rw [none_down, Bool.and_false, Bool.false_and]
/-- Claims.VectorGlobalAccesses, Claims.GatherAndScatter, Claims.TileLoads: nothing is on its way, and no link is down. -/
theorem witness_linked : root.run.flight = [] ∧ root.linked := ⟨rfl, linked_of_unwired root rfl (by decide)⟩
/-- Claims.VectorImmediateResults: the immediate −1 cut to a byte lane. -/
theorem witness_vector_immediate : (0xFF : BitVec (8 * Lane.b.bytes)) = ((0xFFFF : BitVec 16).signExtend 64).setWidth (8 * Lane.b.bytes) := by
  decide
/-- Obligations.VectorFloatingResults: the format and width of F32. -/
theorem witness_vector_floating : fmtF32 = FTy.fmt .f32 ∧ 4 = FTy.bytes .f32 := ⟨rfl, rfl⟩
/-- Claims.SpecialFloatingCases: a nonzero significand. -/
theorem witness_special : (1 : Nat) ≠ 0 := by decide
/-- Claims.RepresentableValuesRoundToThemselves: the largest FP16 number, and the smallest subnormal of FP32. -/
theorem witness_representable : fmtF16 ∈ [fmtE4M3, fmtE5M2, fmtBF16, fmtF16, fmtF32] ∧ 0x7BFF < 2 ^ fmtF16.width ∧
    fmtF16.decode 0x7BFF ≠ .nan ∧ 1 < 2 ^ fmtF32.width ∧ fmtF32.decode 1 ≠ .nan := by decide
/-- R175: 1.5 + 2.25 = 3.75 in FP32, exactly. -/
theorem test_fadd : fAdd fmtF32 .rne (fmtF32.decode 0x3FC00000) (fmtF32.decode 0x40100000) = { bits := 0x40700000, flags := 0 } := by
  decide
/-- R44: 1 + 2^−24 rounds to 1 in FP32, a tie to even, and is inexact. -/
theorem test_fadd_tie : (fAdd fmtF32 .rne (fmtF32.decode 0x3F800000) (fmtF32.decode 0x33800000)).bits = 0x3F800000 := by decide
/-- Claims.VectorCompares: an integer and a floating lane type. -/
theorem witness_compares : VTy.fmt .w = none ∧ VTy.fmt .f16 = some fmtF16 ∧ Cond.lt ≠ .ltu ∧ Cond.lt ≠ .geu :=
  ⟨rfl, rfl, by decide, by decide⟩
/-- A core whose queue registers hold words. -/
abbrev queued : State := { core with r := { core.r with q := #v[[3, 4], [5], [], []] } }
/-- A core that is ganged. -/
abbrev ganged : State := { core with run := { core.run with gang := some gangFresh } }
/-- Claims.LaneMoves, Claims.VectorConversions: a scalar from a g register, from a queue register, and two queue entries. -/
theorem witness_sources : ReadsSource core .vector (.g 1) 0 core ∧
    ReadsSource queued .vector (.q 0) 3 { queued with
      r := { queued.r with q := #v[[4], [5], [], []] }
      run := { queued.run with qrole := #v[⟨none, some .vector⟩, ⟨none, none⟩, ⟨none, none⟩, ⟨none, none⟩] } } :=
  ⟨⟨fun r h => (by cases h; exact ⟨rfl, rfl⟩), fun q h => (by cases h)⟩,
    ⟨fun r h => (by cases h), fun q h => (by cases h; exact ⟨.inl rfl, _, rfl, rfl⟩)⟩⟩
/-- Claims.LaneMoves: ganged and unganged. -/
theorem witness_gang : ganged.openFor h0 ∧ ganged.run.gang ≠ none ∧ core.run.gang = none := ⟨⟨rfl, rfl, rfl, rfl⟩, by decide, rfl⟩
/-- Claims.VectorConversions: the lanes of a narrowing to its last part. -/
theorem witness_conversion : 4 = 16 / Nat.max CvtTy.f32.bytes CvtTy.e4m3.bytes ∧
    12 = (if CvtTy.e4m3.bytes < CvtTy.f32.bytes then (3 : BitVec 2).toNat * 4 else 0) ∧
    0 = (if CvtTy.f32.bytes < CvtTy.e4m3.bytes then (3 : BitVec 2).toNat * 4 else 0) := by decide
/-- Claims.ConversionsObserveAmax: a narrowing to its last part, on a core and in a gang, without a scale and with one from a g
register. -/
theorem witness_amax : core.openFor h0 ∧ ganged.openFor h0 ∧ CvtTy.e4m3.bytes < CvtTy.f32.bytes ∧ ScalarSrc.g 1 ≠ .g 0 ∧
    ReadsSource core .vector (.g 1) 0 core :=
  ⟨⟨rfl, rfl, rfl, rfl⟩, ⟨rfl, rfl, rfl, rfl⟩, by decide, by decide,
    ⟨fun r h => (by cases h; exact ⟨rfl, rfl⟩), fun q h => (by cases h)⟩⟩
/-- Obligations.VectorBufferAccesses: the last vector of W, one past it, an address that is not aligned, and no lane enabled. -/
theorem witness_vector_buffer : core.vtypedTrap .w 262128 0 = none ∧ (∃ x, core.vtypedTrap .w 262144 0 = some x) ∧
    (8 : Word).toNat % 16 ≠ 0 ∧ (∃ j ∈ core.members, (∃ k < 16, (core.m j 0).getLsbD k = true) ∧
      ∀ i ∈ core.members, i < j → ∀ k < 16, (core.m i 0).getLsbD k = false) ∧
    (∀ j ∈ core.members, ∀ k < 16, (core.m j 1).getLsbD k = false) := by
  refine ⟨rfl, ⟨_, rfl⟩, by decide, by decide, by decide⟩
/-- Places in a private SRAM are stored to at once. -/
theorem sram_stores_land (s : State) (b : Bool) (ls : List Loc)
    (all : (ls.all fun l => match l with | .sram _ => true | _ => false) = true) :
    ∀ l ∈ ls, ∀ ord, s.storeClass ord b l = .now := by
  intro l hl ord
  have := List.all_eq_true.mp all l hl
  cases l <;> simp_all [State.storeClass]
/-- Claims.VectorGlobalAccesses: a load, a store that lands at once, and an access that traps. -/
theorem witness_vector_global : root.vglobalTrap 0 0 needR = none ∧ root.vglobalTrap 0 0 needW = none ∧
    (root.touchCmd (.vstore 1 (root.vglobalAccs 0 0))).plainPlaces false (((root.enabledBytes 0).map (fun x =>
      (root.locOf ((0 : Word) + BitVec.ofNat 64 (16 * x.1 + x.2)).toNat, vbyte (root.v x.1 1) x.2))).map (fun x => x.1)) ∧
    (∃ x, core.vglobalTrap 0 0 needR = some x) ∧ (∃ x, core.vglobalTrap 0 0 needW = some x) :=
  ⟨rfl, rfl, ⟨sram_stores_land _ _ _ (by decide), by decide⟩, ⟨_, rfl⟩, ⟨_, rfl⟩⟩
/-- A core whose v2 holds the offsets 0 to 3. -/
abbrev offsets (s : State) : State := { s with r := { s.r with v := s.r.v.set 2 0x00000003000000020000000100000000 } }
/-- Claims.GatherAndScatter: gathers and scatters of words in W and in global memory, and one that traps. -/
theorem witness_gather : (offsets core).openFor h0 ∧ (offsets core).clean ∧ Lane.w ≠ .d ∧
    (offsets core).gsTrap .w 0 2 4 0 needR = none ∧ (offsets root).gsTrap .global 0 2 4 0 needW = none ∧
    (∃ x, (offsets core).gsTrap .global 0 2 4 0 needR = some x) ∧ (∃ x, (offsets core).gsTrap .global 0 2 4 0 needW = some x) :=
  ⟨⟨rfl, rfl, rfl, rfl⟩, ⟨rfl, rfl, rfl, rfl⟩, by decide, rfl, rfl, ⟨_, rfl⟩, ⟨_, rfl⟩⟩
/-- Claims.GatherAndScatter: the places of that scatter are different and stored to at once. -/
theorem witness_scatter_places : ((offsets root).touchCmd (.vscat 1 ((offsets root).gsAccs .global 0 2 4 0))).plainPlaces
    (decide (1 < ((offsets root).enabledElems 0).length))
    (((offsets root).enabledElems 0).flatMap (fun x => (List.range 4).map (fun k =>
      (offsets root).locOf ((BitVec.ofNat 32 (lane 4 x.2 ((offsets root).v x.1 2))).signExtend 64 * BitVec.ofNat 64 4 +
        BitVec.ofNat 64 k).toNat))) := ⟨sram_stores_land _ _ _ (by decide), by decide⟩
/-- Obligations.Ganging: the first instruction of a ganging task, with the quad free and with core 1 running; and a task that
may not gang. -/
theorem witness_ganging : busy.qual h0 = true ∧ busy.noneHeld ∧ busy.cur = some aTask ∧ aTask.tcb.gang = true ∧
    aTask.tcb.handler = false ∧ busy.run.gang = none ∧ busy.run.retired = false ∧
    (∀ c ∈ quadOthers busy.core, busy.busyCore c = false) ∧ (inHandler busy).curHandler = true :=
  ⟨rfl, ⟨rfl, rfl⟩, rfl, rfl, rfl, rfl, rfl, by decide, rfl⟩
/-- Obligations.Ganging: core 1 of the quad runs a segment. -/
theorem witness_ganging_waits : ∃ c ∈ quadOthers busy.core, ({ busy with mod := { busy.mod with others := [{
    core := 1, r := Regs.reset, run := busy.run, rank := busy.rank, cycle := 0 }] } } : State).busyCore c = true :=
  ⟨1, by decide, by decide⟩

/-! ## Witnesses: scalar memory, atomics, fences, windows and remote access -/

/-- Obligations.BufferLoadsAndStores: the last word of C, a misaligned one, and one beyond the buffer. -/
theorem witness_buffer : core.qual h0 = true ∧ core.noneHeld ∧ core.clean ∧ core.run.visit = none ∧
    (131068 : Word).toNat % LdW.w.size = 0 ∧ (131068 : Word).toNat + LdW.w.size ≤ Buf.c.size ∧
    (131070 : Word).toNat % LdW.w.size ≠ 0 ∧ (131072 : Word).toNat % StW.w.size = 0 ∧
    Buf.c.size < (131072 : Word).toNat + StW.w.size :=
  ⟨rfl, ⟨rfl, rfl⟩, ⟨rfl, rfl, rfl, rfl⟩, rfl, by decide, by decide, by decide, by decide, by decide⟩
/-- Claims.GlobalLoads, Claims.GlobalStores, Claims.OwnStoresAreSeen: an access of private SRAM at once, and one of a translated
page, with nothing on its way. -/
theorem witness_global : root.qual h0 = true ∧ root.noneHeld ∧ root.clean ∧ root.run.flight = [] ∧ root.run.comb = [] ∧
    root.run.out = [] ∧ root.jobPending 0x33 = false ∧ root.globalTrap 8 8 needR = none ∧ root.globalTrap 8 8 needW = none ∧
    (∀ l ∈ (root.touchAll 8 8 false).locs 8 8, l.far = false) ∧ (root.touchAll 8 8 true).locs 8 8 = root.locs 8 8 ∧
    (root.touchAll 8 8 true).plainPlaces ((8 : Word).toNat % StW.d.size != 0) ((root.touchAll 8 8 true).locs 8 8) ∧
    root.onUn 8 8 = false ∧ (8 : Word).toNat % LdW.d.size = 0 :=
  ⟨rfl, ⟨rfl, rfl⟩, ⟨rfl, rfl, rfl, rfl⟩, rfl, rfl, rfl, rfl, rfl, rfl, by decide, rfl,
    ⟨sram_stores_land _ _ _ (by decide), by decide⟩, rfl, rfl⟩
/-- The same on a translated page with every right. -/
theorem witness_global_page : (mapped 0x81F).globalTrap 16 8 needR = none ∧ (mapped 0x81F).globalTrap 16 8 needW = none ∧
    ((mapped 0x81F).touchAll 16 8 true).locs 16 8 = (mapped 0x81F).locs 16 8 ∧
    ((((mapped 0x81F).touchAll 16 8 true).locs 16 8).map Loc.place).Nodup ∧
    (∀ l ∈ ((mapped 0x81F).touchAll 16 8 false).locs 16 8, l.far = false) := ⟨rfl, rfl, rfl, by decide, by decide⟩
/-- Claims.FarLoadsArePosted: an address beyond the module's own memory, and a misaligned one in it. -/
theorem witness_far : root.globalTrap 0x4000000000 8 needR = none ∧ (∀ l ∈ root.locs 0x4000000000 8, l.far = true) ∧
    (1 : GReg) ≠ 0 ∧ physOf (root.locs 0x4000000000 8) ≠ none ∧ (mapped 0x81F).globalTrap 20 8 needR = none ∧
    physOf ((mapped 0x81F).locs 20 8) ≠ none ∧ (20 : Word).toNat % LdW.d.size ≠ 0 :=
  ⟨rfl, by decide, by decide, by decide, rfl, by decide, by decide⟩
/-- Claims.GlobalAccessTraps: an absent page, a misaligned address, a UN page, and an address above 52 bits. -/
theorem witness_access_traps : (∃ x, core.globalTrap 0 8 needR = some x) ∧ (∃ x, core.globalTrap 0 8 needW = some x) ∧
    (4 : Word).toNat % 8 ≠ 0 ∧ (mapped 0x85F).globalTrap 8 8 needR = none ∧ (mapped 0x85F).onUn 8 8 = true ∧
    2 ^ 52 ≤ (0x10000000000000 : Word).toNat := ⟨⟨_, rfl⟩, ⟨_, rfl⟩, by decide, rfl, rfl, by decide⟩
/-- Claims.PageChecks: the last byte of a page; no entry, a read-only page, a page of kind 11, and a page with every right. -/
theorem witness_page_checks : core.run.kind ≠ .root ∧ (65535 : Word).toNat / 65536 = ((65535 : Word).toNat + 1 - 1) / 65536 ∧
    core.leafFor 0 65535 needW.w = none ∧ (mapped 0x803).leafFor 0 65535 needW.w = some 0x803 ∧ needW.w = true ∧ (0x803).testBit 2 = false ∧
    (mapped 0x87F).leafFor 0 65535 needW.w = some 0x87F ∧ (0x87F).testBit 5 = true ∧ (0x87F).testBit 6 = true ∧
    (0x87F).testBit 1 = true ∧ (0x87F).testBit 2 = true ∧ (0x1F).testBit 5 = false := by decide
/-- Claims.Atomics: an atomic of private SRAM, and one of a translated page, on a word of zeros. -/
theorem witness_atomics : 4 = (if (0 : BitVec 1) = 1 then 8 else 4) ∧ root.amoTrap 8 4 true = none ∧ root.amoTrap 8 4 false = none ∧
    (mapped 0x81F).amoTrap 8 4 true = none ∧ (root.touchAll 8 4 true).locs 8 4 = root.locs 8 4 ∧
    ((root.locs 8 4).map Loc.place).Nodup ∧ (∀ l ∈ root.locs 8 4, l.far = false) ∧
    (∀ i < 4, (0 : BitVec (8 * 4)).extractLsb' (8 * i) 8 = (((root.locs 8 4)[i]?).map (root.touchAll 8 4 true).fetchByte).getD 0) :=
  ⟨by decide, rfl, rfl, rfl, rfl, by decide, by decide, by decide⟩
/-- Claims.AtomicTraps: misaligned, without the AMO right, and on a UN page. -/
theorem witness_atomic_traps : (∃ x, core.amoTrap 4 8 true = some x) ∧ (4 : Word).toNat % 8 ≠ 0 ∧
    (∃ x, (mapped 0x80F).amoTrap 8 8 true = some x) ∧ (∃ y, (mapped 0x80F).globalTrap 8 8 needAmo = some y) ∧
    (∃ x, (mapped 0x85F).amoTrap 8 8 false = some x) ∧ (mapped 0x85F).globalTrap 8 8 needAmo = none ∧
    Instr.amoAdd h0 1 1 2 3 0 ∈ [Instr.amoAdd h0 1 1 2 3 0, .amoSwap h0 1 1 2 3 0, .cas h0 1 1 2 3 4 0] :=
  ⟨⟨_, rfl⟩, by decide, ⟨_, rfl⟩, ⟨_, rfl⟩, ⟨_, rfl⟩, rfl, by decide⟩
/-- Claims.Fences: nothing to wait for; nothing lost, and accesses of kind mw lost to peers 3 and 5, and one of kind cr to
peer 2. -/
theorem witness_fences : core.qual h0 = true ∧ core.noneHeld ∧ core.run.comb = [] ∧ core.run.flight = [] ∧ core.run.out = [] ∧
    core.jobPending (0x7F : BitVec 7).toNat = false ∧ core.run.lost = [] ∧ (2 : BitVec 7).getLsbD 1 = true ∧
    core.mod.jobs = [] ∧ (3, 1) ∈ ({ core with run := { core.run with lost := [(5, 1), (3, 1), (2, 4)] } } : State).run.lost ∧
    (∀ y ∈ ({ core with run := { core.run with lost := [(5, 1), (3, 1), (2, 4)] } } : State).run.lost,
      (2 : BitVec 7).getLsbD y.2 = true → 3 ≤ y.1) :=
  ⟨rfl, ⟨rfl, rfl⟩, rfl, rfl, rfl, rfl, rfl, rfl, rfl, by decide, by decide⟩
/-- An access on its way, of the kinds in a list. -/
abbrev aFlight (kinds : List Nat) : Flight :=
  { id := 0, grp := 0, elem := 0, by_ := { aJob.by_ with bits := kinds }, va := 0, seq := true, acq := false, own := true,
    op := .load .d 1 [0], performed := false, got := [] }
/-- Claims.Fences: a FENCE of stores while a vector load is held, and a load and a remote load are on their way; and a held
load with an unresolved guard behind a FENCE of everything. -/
theorem witness_fences_others :
    (∀ e ∈ ({ core with run := { core.run with vq := [heldFp none] } } : State).run.held, e.guard = none →
      ∀ k, e.cmd.kindBit = some k → (2 : BitVec 7).getLsbD k = false) ∧
    (∀ f ∈ ({ core with run := { core.run with flight := [aFlight [0]] } } : State).run.flight, ∀ k ∈ f.by_.bits,
      (2 : BitVec 7).getLsbD k = false) ∧
    (∀ q ∈ ({ core with run := { core.run with out := [aRequest] } } : State).run.out, ∀ k ∈ RemOp.bits q.op,
      (2 : BitVec 7).getLsbD k = false) ∧ (1 : BitVec 7).getLsbD 1 = false ∧ (1 : BitVec 7).getLsbD 5 = false := by
  refine ⟨?_, ?_, ?_, rfl, rfl⟩
  · intro e h _ k hk
    obtain rfl := List.mem_singleton.1 h
    cases hk
  · intro f h k hk
    obtain rfl := List.mem_singleton.1 h
    obtain rfl := List.mem_singleton.1 hk
    rfl
  · intro q h k hk
    obtain rfl := List.mem_singleton.1 h
    obtain rfl := List.mem_singleton.1 hk
    rfl
/-- Claims.FencesWait: a load and a remote load on their way that a FENCE of loads covers, a store that a release waits for,
and an engine job of the task. -/
theorem witness_fences_wait : (∃ f ∈ ({ core with run := { core.run with flight := [aFlight [0]] } } : State).run.flight,
      ∃ k ∈ f.by_.bits, (1 : BitVec 7).getLsbD k = true) ∧
    (∃ q ∈ ({ core with run := { core.run with out := [aRequest] } } : State).run.out,
      ∃ k ∈ RemOp.bits q.op, (1 : BitVec 7).getLsbD k = true) ∧
    (∃ f ∈ ({ core with run := { core.run with flight := [aFlight [1]] } } : State).run.flight,
      ∃ k ∈ [0, 1, 4, 5], k ∈ f.by_.bits) ∧
    core.qual h0 = true ∧ core.noneHeld ∧ core.run.comb = [] ∧
    ({ core with mod := { core.mod with jobs := [aJob] } } : State).jobPending (0x7F : BitVec 7).toNat = true ∧
    root.alignedTrap 8 8 needW = none :=
  ⟨⟨_, List.mem_singleton.2 rfl, 0, by decide, rfl⟩, ⟨_, List.mem_singleton.2 rfl, 0, by decide, rfl⟩,
    ⟨_, List.mem_singleton.2 rfl, 1, by decide, by decide⟩, rfl, ⟨rfl, rfl⟩, rfl, rfl, rfl⟩
/-- A core whose context's tables lead page 0 to a leaf with every right, which no cache holds. -/
abbrev walkable : State :=
  { core with mem := ((core.mem.write 0 (natBytes 8 0x8001)).write 0x8000 (natBytes 8 0x10001)).write 0x10000 (natBytes 8 0x81F) }
/-- Claims.Prefetches: the root controller, a page that is not there, a UN page, a cached page, and one that a walk is begun
for. -/
theorem witness_prefetch : core.qual h0 = true ∧ Instr.pref h0 1 0 ∈ [Instr.pref h0 1 0, .prefSt h0 1 0] ∧
    root.run.kind = .root ∧ core.globalTrap 0 1 needR ≠ none ∧ (mapped 0x85F).onUn 8 1 = true ∧
    (mapped 0x81F).cached 0 8 ≠ none ∧ walkable.run.kind ≠ .root ∧ walkable.globalTrap 8 1 needR = none ∧
    walkable.globalTrap 8 1 needW = none ∧ walkable.onUn 8 1 = false ∧ walkable.cached 0 8 = none :=
  ⟨rfl, by decide, rfl, by decide, rfl, by decide, by decide, by decide +kernel, by decide +kernel, by decide +kernel, rfl⟩
/-- Claims.WindowWrites: no copy's row in part read or written at the rank, and one of which one byte of two is written. -/
theorem witness_windows_wait : (∀ j ∈ core.mod.jobs, j.within core.rank.key = false) ∧
    ({ aJob with record := zeros 8 ++ natBytes 8 0x8000000000000000 ++ natBytes 3 2 ++ zeros 13, st := .running, filled := true,
                 left := [(1, 5)] } : Job).within ⟨0, 0⟩ = true := ⟨fun j h => (by cases h), by decide +kernel⟩
/-- Claims.WindowWrites: a window that ends with its buffer, one that does not, and a visitor. -/
theorem witness_windows : WindowOk (0x8000000000000000 ||| 16383 <<< 14 ||| 1 <<< 29) ∧ ¬WindowOk (16383 <<< 14 ||| 2 <<< 29) ∧
    core.run.visit = none ∧ ({ core with run := { core.run with visit := some [] } } : State).run.visit ≠ none := by
  refine ⟨?_, ?_, rfl, by decide⟩
  · unfold WindowOk; decide
  · unfold WindowOk; decide
/-- Claims.WindowAdmission: a right, and an access of the last byte of a window that is admitted. -/
theorem witness_admission : 57 ∈ [57, 58, 59] ∧
    winAdmits (0xC200000000000000 ||| 2 <<< 14 ||| 1 <<< 29) .w 57 47 1 (fun _ => false) = true := by decide
/-- Claims.RemoteRequests, Claims.TryRemoteStore: a task outside a handler and in one; a rank that exists and the first that does
not; a free credit and none; an aligned and a misaligned offset. -/
theorem witness_remote : busy.qual h0 = true ∧ busy.curHandler = false ∧ (inHandler busy).curHandler = true ∧ busy.nrank = 2 ∧
    ((withG busy 1 1).g 1).toNat < busy.nrank ∧ ((withG busy 1 1).g 1).toNat < 2 ^ 20 ∧
    2 ^ 20 ≤ ((withG busy 1 0x100000).g 1).toNat ∧ busy.nrank ≤ ((withG busy 1 2).g 1).toNat ∧ busy.run.credits < 64 ∧
    64 ≤ ({ busy with run := { busy.run with credits := 64 } } : State).run.credits ∧ (8 : Word).toNat % LdW.d.size = 0 ∧
    (4 : Word).toNat % StW.d.size ≠ 0 := ⟨rfl, rfl, rfl, rfl, by decide, by decide, by decide, by decide, by decide, by decide, by decide, by decide⟩
/-- A task whose context has cluster 0, on a core where page 0 is mapped. -/
abbrev casting : State := { busy with mod := { busy.mod with
  ctxs := [{ aCtx with clusters := [0] }], tlb := [{ ctx := 0, page := 0, leaf := 0x81F }] } }
/-- Claims.MulticastStores: an empty mask, a mask whose table cannot be read, and one that names cluster 0. -/
theorem witness_multicast : busy.noneHeld ∧ busy.curHandler = false ∧ busy.g 1 = 0 ∧ (withG busy 1 1).g 1 ≠ 0 ∧
    (∃ x, busy.mctClusters 1 = .inl x) ∧ casting.mctClusters 1 = .inr [0] ∧ (16 : Word).toNat % McW.q.size = 0 ∧
    (8 : Word).toNat % McW.q.size ≠ 0 ∧ casting.run.flight = [] ∧ casting.linked ∧ casting.run.credits < 64 :=
  ⟨⟨rfl, rfl⟩, rfl, rfl, by decide, ⟨_, rfl⟩, rfl, by decide, by decide, rfl, linked_of_unwired casting rfl (by decide), by decide⟩

/-! ## Witnesses: events, tasks and traps -/

/-- The event of a name in context 0. -/
abbrev ev0 (n : Nat) : EvKey := { ctx := 0, ev := n }
/-- A state with bytes placed in the C buffer of the resident rank. -/
abbrev withC (s : State) (off n w : Nat) : State := { s with rank := { s.rank with c := s.rank.c.write off (natBytes n w) } }
/-- Claims.EventOperandChecks: an absent event, a counted one, one with an inline payload, and one of tile class. -/
theorem witness_event_operands : busy.run.kind = .compute ∧ busy.run.visit = none ∧ busy.ev (ev0 99) = none ∧
    (busy.ev (ev0 1)).isSome ∧ (busy.ev (ev0 2)).map (fun x => (x.desc.cls, sendKind x.desc, busy.sendParty x)) = some (.inline, true, true) ∧
    (busy.ev (ev0 3)).map (fun x => (x.desc.cls, sendKind x.desc)) = some (.tile, false) ∧
    (131056 : Word).toNat % 16 = 0 ∧ (131056 : Word).toNat + 16 ≤ 131072 ∧ 131072 < (131056 : Word).toNat + 17 := by decide
/-- Claims.WaitsOutsideTasks: a handler, and the root controller. -/
theorem witness_waits_outside : IsWait (.yield h0 0) h0 8 ∧ (inHandler busy).qual h0 = true ∧ (inHandler busy).atLoopEnd = false ∧
    (inHandler busy).run.kind = .compute ∧ (inHandler busy).curHandler = true ∧ root.run.kind ≠ .compute ∧ root.atLoopEnd = false :=
  ⟨.inr (.inr (.inl ⟨0, rfl, rfl⟩)), rfl, rfl, rfl, rfl, by decide, rfl⟩
/-- A task that resumes at its wait with an outcome. -/
abbrev resumed (o : Option WaitOut) : State := { busy with
  run := { busy.run with resume := true }
  mod := { busy.mod with tasks := [{ aTask with
    outcome := o, wait := some { alts := [{ e := ev0 1, pay := none, bytes := [] }], acc := none, drain := false, mask := 0 } }] } }
/-- Obligations.WaitsComplete: an EVW that resumes with TIMEOUT, and a wait without an outcome. -/
theorem witness_waits_complete : IsWait (.evw h0 1 0 none 0) h0 12 ∧ (resumed none).qual h0 = true ∧
    (resumed none).atLoopEnd = false ∧ (resumed none).run.kind = .compute ∧ (resumed none).curHandler = false ∧
    (resumed none).run.resume = true ∧ (∃ k, (resumed none).cur = some k ∧ k.outcome = none) ∧
    (∃ k o w, (resumed (some ⟨.timeout, 1, 7, 0⟩)).cur = some k ∧ k.outcome = some o ∧ k.wait = some w ∧ o.st ≠ .withdrawn) :=
  ⟨.inl ⟨1, 0, none, 0, rfl, rfl⟩, rfl, rfl, rfl, rfl, rfl, ⟨_, rfl, rfl⟩, ⟨_, _, _, rfl, rfl, rfl, by decide⟩⟩
/-- Every statement about the end of a segment: the running task, with nothing left to finish. -/
theorem witness_finished : busy.finished ∧ busy.cur = some aTask :=
  ⟨⟨rfl, ⟨rfl, rfl⟩, by decide, rfl, rfl, rfl, rfl, rfl, rfl, rfl, rfl, rfl, rfl, rfl, rfl, rfl, rfl, rfl⟩, rfl⟩
/-- Claims.EvwOffers: a checked operand, without a payload and with one at the end of A, under the default mask and another. -/
theorem witness_evw : (∃ x, busy.evCheck (ev0 1) (busy.payRef none) sendKind busy.sendParty = .ok (x, none)) ∧
    (∃ x q, (withG busy 1 131056).evCheck (ev0 2) ((withG busy 1 131056).payRef (some ⟨false, 1, 0⟩)) sendKind
      (withG busy 1 131056).sendParty = .ok (x, some q)) ∧ ev0 1 = { ctx := busy.run.ctx, ev := ((1 : BitVec 20).toNat + (busy.g 0).toNat) % 2 ^ 20 } :=
  ⟨⟨_, rfl⟩, ⟨_, _, rfl⟩, rfl⟩
/-- Claims.ChooseOffersEveryAlternative: a list of one entry of event 1, at the start of C. -/
theorem witness_choose : (withC busy 0 32 1).entryTrap 0 0 = none ∧ (withC busy 0 32 1).finished ∧ (withC busy 0 32 1).clean ∧
    1 ≤ (1 : BitVec 5).toNat ∧ (0 : Word).toNat + 32 * (1 : BitVec 5).toNat ≤ 131072 :=
  ⟨rfl, ⟨rfl, ⟨rfl, rfl⟩, by decide, rfl, rfl, rfl, rfl, rfl, rfl, rfl, rfl, rfl, rfl, rfl, rfl, rfl, rfl, rfl⟩, ⟨rfl, rfl, rfl, rfl⟩,
    by decide, by decide⟩
/-- C with an entry of event 4 in its last 32 bytes, and one of event 1 before it. -/
abbrev lastEntries : State := withC (withC busy 131008 4 1) 131040 4 4
/-- Claims.ChooseOffersEveryAlternative: a list of two entries that ends with C, and the largest count. -/
theorem witness_choose_two : lastEntries.entryTrap 131008 0 = none ∧ lastEntries.entryTrap 131008 1 = none ∧
    (131008 : Word).toNat % 32 = 0 ∧ (131008 : Word).toNat + 32 * (2 : BitVec 5).toNat ≤ 131072 ∧ (8 : BitVec 5).toNat ≤ 8 :=
  ⟨rfl, rfl, by decide, by decide, by decide⟩
/-- R157: an event that two entries of a list name traps EVT_DUP. -/
theorem test_choose_twice : (withC (withC busy 131008 4 1) 131040 4 1).entryTrap 131008 1 = some { trap := .evtDup, addr := 0 } := rfl
/-- Claims.YieldMakesReady, Claims.EndFreesTheTask: a task that is not held, has no activation and no successor. -/
theorem witness_yield_end : busy.qual h0 = true ∧ aTask.hold = false ∧ aTask.act = none ∧ aTask.tcb.succ = [] := ⟨rfl, rfl, rfl, rfl⟩
/-- Claims.DrainsOffer: rank 0 drains, rank 1 receives, and an event that is not there. -/
theorem witness_drain : (∃ x, busy.evCheck (ev0 3) none (busy.drainKind (some false)) (busy.drainParty true) = .ok (x, none)) ∧
    (∃ x, ({ busy with rank := { busy.rank with key := ⟨0, 1⟩ } } : State).evCheck (ev0 3) none (busy.drainKind none)
      (({ busy with rank := { busy.rank with key := ⟨0, 1⟩ } } : State).drainParty false) = .ok (x, none)) ∧
    (∃ y, busy.evCheck (ev0 99) none (busy.drainKind none) (busy.drainParty false) = .error y) := ⟨⟨_, rfl⟩, ⟨_, rfl⟩, ⟨_, rfl⟩⟩
/-- A try that waits for its answer. -/
abbrev trying (a : Option TryAns) : State := { busy with run := { busy.run with trying := some 0, answer := a } }
/-- Claims.TriesTakeTheirAnswer: no answer, an outcome, a trap, and an accumulator's bytes. -/
theorem witness_tries : IsTry (.evt h0 1 0 none) h0 12 none ∧ (trying none).qual h0 = true ∧ (trying none).run.trying = some 0 ∧
    (trying none).run.answer = none ∧
    (∃ a, (trying (some ⟨⟨.notready, 1, 7, 0⟩, none, []⟩)).run.answer = some a ∧ a.trap = none) ∧
    (∃ a x, (trying (some ⟨⟨.notready, 1, 7, 0⟩, some .evtUnarmed, []⟩)).run.answer = some a ∧ a.trap = some x) ∧
    IsTry (.crecvT h0 1 3 0) h0 12 (some 1) ∧
    (∃ a x, (trying (some ⟨⟨.occurred, 3, 7, 0⟩, none, [1]⟩)).run.answer = some a ∧ a.trap = none ∧ a.bs ≠ [] ∧
      busy.ev (ev0 a.out.ev) = some x) :=
  ⟨.inl ⟨1, 0, none, rfl, rfl, rfl⟩, rfl, rfl, rfl, ⟨_, rfl, rfl⟩, ⟨_, _, rfl, rfl⟩,
    .inr (.inr (.inr (.inr ⟨1, 3, 0, rfl, rfl, rfl⟩))),
    ⟨_, _, rfl, rfl, by decide, rfl⟩⟩
/-- Claims.TriesCheckTheirEvent: no try is outstanding, and the event is not there. -/
theorem witness_try_traps : busy.run.trying = none ∧
    (∃ y, busy.evCheck (ev0 99) (busy.payRef none) sendKind busy.sendParty = .error y) := ⟨rfl, _, rfl⟩
/-- Claims.DeferredEffects: room in the list, and a full one; a counted, a group, a free binding and a held binding event; a group
event deferred before; the bounds of an arity and of an entry. -/
theorem witness_deferred : busy.run.deferred.length < 64 ∧
    (∃ x, busy.evCheck (ev0 1) none sendKind busy.sendParty = .ok (x, none) ∧ x.desc.kind ≠ .group) ∧
    (∃ x, busy.evCheck (ev0 1) none (fun d => d.kind == .counted) (fun _ => true) = .ok (x, none)) ∧
    (∃ x, busy.evCheck (ev0 2) (some (false, 0)) sendKind busy.sendParty = .ok (x, some ⟨false, 0⟩) ∧ x.desc.kind = .group) ∧
    ({ busy with run := { busy.run with deferred := [.signal 0 (ev0 2) none] } } : State).deferredTo (ev0 2) = true ∧
    (∃ x, busy.evCheck (ev0 4) none (fun d => d.kind == .binding) (fun _ => true) = .ok (x, none) ∧ x.bound = false) ∧
    (∃ x, busy.evCheck (ev0 5) none (fun d => d.kind == .binding) busy.holds = .ok (x, none)) ∧
    (∀ d ∈ busy.run.deferred, ∀ p f k m, d = .bind p f k m → f ≠ ev0 4) ∧
    1 ≤ ((withG busy 1 65535).g 1).toNat ∧ ((withG busy 1 65535).g 1).toNat ≤ 65535 ∧ 65535 < ((withG busy 1 65536).g 1).toNat ∧
    ((withG busy 1 0xFFFFFFFFFFFFC).g 1).toNat < 2 ^ 52 ∧ ((withG busy 1 0xFFFFFFFFFFFFC).g 1).toNat % 4 = 0 ∧
    ((withG busy 1 2).g 1).toNat % 4 ≠ 0 ∧
    64 ≤ ({ busy with run := { busy.run with deferred := List.replicate 64 (.unbind 0 (ev0 5)) } } : State).run.deferred.length :=
  ⟨by decide, ⟨_, rfl, by decide⟩, ⟨_, rfl⟩, ⟨_, rfl, rfl⟩, rfl, ⟨_, rfl, rfl⟩, ⟨_, rfl⟩, fun d h => (by cases h), by decide, by decide,
    by decide, by decide, by decide, by decide, by decide⟩
/-- Claims.SpawnDefersItsTcb: a block of zeros is the TCB of rank 0; one for rank 1; one whose entry is misaligned; the last place
in C and the first beyond. -/
theorem witness_spawn : busy.noneHeld ∧ busy.clean ∧ (∃ k, tcbOf ((busy.rank.buf .c).read 0 128) = some k ∧ k.handler = false ∧
      k.rank = busy.rank.key.rank ∧ ∀ n ∈ k.succ, busy.succTrap n = none) ∧
    (∃ k, tcbOf (((withC busy 0 16 (2 ^ 96)).rank.buf .c).read 0 128) = some k ∧ k.rank ≠ busy.rank.key.rank) ∧
    tcbOf (((withC busy 0 16 2).rank.buf .c).read 0 128) = none ∧ (130944 : Word).toNat % 16 = 0 ∧
    (130944 : Word).toNat + 128 ≤ 131072 ∧ 131072 < (130960 : Word).toNat + 128 :=
  ⟨⟨rfl, rfl⟩, ⟨rfl, rfl, rfl, rfl⟩, ⟨_, rfl, rfl, rfl, fun n h => (by cases h)⟩, ⟨_, rfl, by decide⟩, rfl, by decide, by decide, by decide⟩
/-- Claims.EventSequence: an event that is there and one that is not. -/
theorem witness_evseq : busy.run.kind = .compute ∧ busy.ev (ev0 99) = none ∧ (∃ x, busy.ev (ev0 1) = some x) := ⟨rfl, rfl, _, rfl⟩
/-- R169: the state word of a counted event at instance 7 that is not armed. -/
theorem test_evseq : (busy.ev (ev0 1)).map evWord = some 7 := by decide
/-- Claims.TrapsAbortSegments: the running task, with nothing to undo. -/
theorem witness_aborts : busy.run.kind = .compute ∧ busy.cur = some aTask ∧ busy.mod.reports.length < 4096 ∧ busy.run.comb = [] ∧
    busy.run.trying = none ∧ busy.run.arms = [] ∧ busy.run.pairs = [] ∧ busy.run.undo = [] ∧ busy.run.visit = none ∧
    aTask.act = none := ⟨rfl, rfl, by decide, rfl, rfl, rfl, rfl, rfl, rfl, rfl⟩
/-- Claims.TrapsAbortSegments: a full report queue. -/
theorem witness_aborts_full : ¬(({ busy with mod := { busy.mod with reports := List.replicate 4096 aReport } } : State).mod.reports.length <
    4096) := by
  rw [List.length_replicate]
  decide
/-- A segment that wrote windows 7 and 0, refreshed the pair at 0, and only read the last pair. -/
abbrev written : State :=
  { busy with run := { busy.run with undo := [(7, 5), (0, 0)], pairs := [⟨0, true⟩, ⟨122880, false⟩] } }
/-- Claims.AbortsUndoWindows: windows written and one that was not, a refreshed pair and one that is only read, and bytes of the
working and of the committed copy. -/
theorem witness_undo : written.run.kind = .compute ∧ written.cur = some aTask ∧ written.run.comb = [] ∧ written.run.trying = none ∧
    written.run.arms = [] ∧ written.run.visit = none ∧ aTask.act = none ∧ (written.run.undo.map (fun u => u.1)).Nodup ∧
    (7, 5) ∈ written.run.undo ∧ (3 : Fin 8).val ∉ written.run.undo.map (fun u => u.1) ∧
    (written.run.pairs.map (fun p => p.off)).Nodup ∧
    (∀ p ∈ written.run.pairs, ∀ q ∈ written.run.pairs, p.off ≠ q.off → p.off + 8192 ≤ q.off ∨ q.off + 8192 ≤ p.off) ∧
    workingOff written.rank.c 0 = 4096 ∧ committedOff written.rank.c 0 = 0 ∧ 4096 + 4095 ≠ 0 + 3 := by decide
/-- Claims.TrapsEnterAtTvec. -/
theorem witness_trap_entry : root.run.kind = .root := rfl
/-- R220: a trap on the root controller saves its code and goes to TVEC. -/
theorem test_trap_entry : (root.trap .align 6).run.sup.trapaddr = 6 ∧ (root.trap .align 6).r.pc = root.run.sup.tvec := by decide

/-! ## Witnesses: tiles, accumulators and summaries -/

/-- A core whose tiles all have one configuration. -/
abbrev tiled (s : State) (fmt rows colb lay : Nat) : State :=
  { s with r := { s.r with tcfg := Vector.replicate 8 (BitVec.ofNat 20 (fmt + rows * 2 ^ 4 + colb * 2 ^ 10 + lay * 2 ^ 18)) } }
/-- Obligations.TileConfiguration: the largest tile, the least one, and one row too many. -/
theorem witness_tcfg : (5 ≤ 5 ∧ 1 ≤ 16 ∧ 16 ≤ 32 ∧ 16 ≤ 128 ∧ 128 ≤ 128 ∧ 128 % 16 = 0 ∧ 16 * 128 ≤ 2048) ∧
    ((5 + 16 * 2 ^ 4 + 128 * 2 ^ 10 + 2 * 2 ^ 18 : Word).extractLsb' 4 6).toNat = 16 ∧
    ((5 + 16 * 2 ^ 4 + 128 * 2 ^ 10 + 2 * 2 ^ 18 : Word).extractLsb' 10 8).toNat = 128 ∧
    ((5 + 16 * 2 ^ 4 + 128 * 2 ^ 10 + 2 * 2 ^ 18 : Word).extractLsb' 20 44) = 0 ∧
    ((33 * 2 ^ 4 + 16 * 2 ^ 10 : Word).extractLsb' 4 6).toNat = 33 := by decide
/-- Claims.TileLoads: no configuration, a load from W, one past its end, a misaligned stride, and one from global memory with the
page's scales. -/
theorem witness_tile_loads : core.tileUse 1 .cfg = none ∧ (tiled core 0 16 128 0).openFor h0 ∧ (tiled core 0 16 128 0).clean ∧
    (∃ cfg, (tiled core 0 16 128 0).tileUse 1 .xor16 = some cfg ∧
      (tiled core 0 16 128 0).tileTrap .w 0 128 cfg needR false = none ∧
      ∃ x, (tiled core 0 16 128 0).tileTrap .w 262128 128 cfg needR false = some x) ∧
    (8 : BitVec 16).toNat % 16 ≠ 0 ∧
    (∃ cfg, (tiled root 0 2 16 0).tileUse 1 .cfg = some cfg ∧ (tiled root 0 2 16 0).tileTrap .global 0 16 cfg needR true = none) ∧
    (tiled root 0 2 16 0).run.flight = [] ∧ (tiled root 0 2 16 0).linked :=
  ⟨rfl, ⟨rfl, rfl, rfl, rfl⟩, ⟨rfl, rfl, rfl, rfl⟩, ⟨_, rfl, rfl, _, rfl⟩, by decide, ⟨_, rfl, rfl⟩,
    rfl, linked_of_unwired _ rfl (by decide)⟩
/-- Claims.TileStores: two rows of sixteen bytes to private SRAM, and a store that traps. -/
theorem witness_tile_stores : (∃ cfg, (tiled root 0 2 16 0).tileUse 1 .row = some cfg ∧ cfg.rows = 2 ∧ cfg.colb = 16 ∧
      (tiled root 0 2 16 0).tileTrap .global 0 16 cfg needW false = none) ∧
    (∃ cfg, (tiled root 0 2 16 0).tileUse 1 .row = some cfg ∧ (((tiled root 0 2 16 0).tileFmts .global 0 16 cfg).touchCmd
      (.tst 1 cfg (((tiled root 0 2 16 0).tileFmts .global 0 16 cfg).tileRows .global 0 16 cfg))).plainPlaces false
        ((List.range 2).flatMap (fun j => (List.range 16).map (fun x => (tiled root 0 2 16 0).rowPlace .global 0 16 j x)))) ∧
    (∃ cfg x, (tiled core 0 2 16 0).tileUse 1 .row = some cfg ∧ (tiled core 0 2 16 0).tileTrap .a 131072 16 cfg needW false = some x) :=
  ⟨⟨_, rfl, rfl, rfl, rfl⟩, ⟨_, rfl, sram_stores_land _ _ _ (by decide), by decide⟩, ⟨_, _, rfl, rfl⟩⟩
/-- Claims.TileClearsAndTransposes: a square tile of bytes, no configuration, and a pair that does not match. -/
theorem witness_transpose : (∃ c, (tiled core 5 16 16 0).tile? 1 = some c ∧ c.rows = c.elems) ∧ core.tile? 1 = none ∧
    (∃ c, (tiled core 5 16 32 0).tile? 1 = some c ∧ c.rows ≠ c.elems) := ⟨⟨_, rfl, by decide⟩, rfl, ⟨_, rfl, by decide⟩⟩
/-- Claims.AccumulatorMoves: the last block of C, and one beyond it. -/
theorem witness_accumulator : core.bufTrap .c 130048 1024 16 = none ∧
    core.bufTrap .c 130064 1024 16 = some { trap := .pagePerm, addr := typedAddr .c 130064 } := by decide +kernel
/-- Obligations.MatrixMultiply: each of the three paths, and a pair that is none. -/
theorem witness_mma : (∃ c, (tiled core 5 16 128 0).tile? 2 = some c ∧ c.rows = 16 ∧ c.colb = 128 ∧ c.fmt = 5) ∧
    (∃ c, (tiled core 2 16 128 0).tile? 2 = some c ∧ c.fmt = 2) ∧ (∃ c, (tiled core 1 16 128 0).tile? 2 = some c ∧ c.fmt = 1) ∧
    (∃ c, (tiled core 3 16 128 0).tile? 2 = some c ∧ c.fmt = 3) :=
  ⟨⟨_, rfl, rfl, rfl, rfl⟩, ⟨_, rfl, rfl⟩, ⟨_, rfl, rfl⟩, ⟨_, rfl, rfl⟩⟩
/-- Obligations.AccumulatorConversion: the last column block of an E4M3 tile, and one past it. -/
theorem witness_ccvt : ReadsSource (tiled core 0 16 128 0) .matrix (.g 0) 0 (tiled core 0 16 128 0) ∧
    (∃ c, (tiled core 0 16 128 0).tile? 1 = some c ∧ c.fmt = fmtCode .e4m3 ∧ c.rows = 16 ∧
      16 * ((7 : BitVec 4).toNat + 1) ≤ c.elems ∧ ¬16 * ((8 : BitVec 4).toNat + 1) ≤ c.elems) :=
  ⟨⟨fun r h => (by cases h; exact ⟨rfl, rfl⟩), fun q h => (by cases h)⟩, ⟨_, rfl, rfl, rfl, by decide, by decide⟩⟩
/-- Claims.SummaryUpdates: the last pair of C, neither busy nor one of eight open ones. -/
theorem witness_summary_place : core.pairTrap 122880 = none ∧ core.pairFull 122880 = false ∧ core.pairBusy 122880 = false := by
  decide +kernel
/-- Claims.SummaryTraps: misaligned, outside C, busy, a ninth pair, and malformed bytes. -/
theorem witness_summary_traps : 64 % 4096 ≠ 0 ∧ 126976 % 4096 = 0 ∧ 131072 < 126976 + 8192 ∧
    (withC core 2 1 2).pairBusy 0 = true ∧
    ({ core with run := { core.run with pairs := List.replicate 8 ⟨8192, true⟩ } } : State).pairFull 0 = true ∧
    1 < ((withC core 3 1 2).rank.c.get 3).toNat := by decide
/-- C with the header of an empty summary of a type in both copies of the pair at 0. -/
abbrev withPair (code : Nat) : State := withC (withC core 0 2 (0x0100 + code)) 4096 2 (0x0100 + code)
/-- Claims.SummaryUpdates, Obligations.SummaryQueries: a well-formed pair of type Q, H and M. -/
theorem witness_pairs : (withPair 0).pairCheck .q 0 = none ∧ (withPair 1).pairCheck .h 0 = none ∧
    (withPair 3).pairCheck .m 0 = none ∧ (withPair 3).pairTrap 0 = none ∧ (withPair 3).pairFull 0 = false ∧
    (withPair 3).pairBusy 0 = false := by decide +kernel
/-! A D pair is shown well formed without running through its 4,096 registers. -/

/-- A list of zero bytes is the number 0. -/
theorem leNat_zeros : ∀ l : List Byte, (∀ x ∈ l, x = 0) → leNat l = 0
  | [], _ => rfl
  | b :: bs, h => by
    have hb : b = 0 := h b (by simp)
    have ih := leNat_zeros bs (fun x hx => h x (by simp [hx]))
    simp [leNat, hb, ih]
/-- A D body of zeros has zero registers. -/
theorem dReg_zeros (f : Nat → Byte) (n j : Nat) (h : ∀ i, 2 ≤ i → f i = 0) : dReg ((List.range n).map f) j = 0 := by
  have hz : leNat ((((List.range n).map f).drop (64 + 3 * (j / 4))).take 3) = 0 := by
    apply leNat_zeros
    intro x hx
    obtain ⟨i, hi, rfl⟩ := List.mem_drop_iff_getElem.1 (List.mem_of_mem_take hx)
    simp only [List.getElem_map, List.getElem_range]
    exact h _ (by omega)
  simp [dReg, fld, hz]
/-- C with the header of an empty D summary at 0. -/
abbrev withD : State := withC core 0 2 0x0102
/-- Beyond the header that C holds zeros. -/
theorem withD_zeros (i : Nat) (h : 2 ≤ i) : withD.rank.c.get (0 + i) = 0 := by
  have hm : withD.rank.c = [(0, 2), (1, 1)] := rfl
  rw [hm]
  have h0 : ¬(0 + i = 0) := by omega
  have h1 : ¬(0 + i = 1) := by omega
  simp only [Memory.get, if_neg h0, if_neg h1]
  rfl
/-- Claims.SummaryUpdates, Obligations.SummaryQueries: a well-formed D pair. -/
theorem witness_pair_d : withD.pairCheck .d 0 = none ∧ withD.pairTrap 0 = none := by
  refine ⟨?_, by decide +kernel⟩
  have hc : withD.pairCopy 0 = 0 := by decide
  have hr : (List.range 4096).all (fun j => decide (dReg (withD.bufRead .c 0 4096) j ≤ 53)) = true := by
    simp only [List.all_eq_true, decide_eq_true_eq]
    intro j _
    rw [show withD.bufRead .c 0 4096 = (List.range 4096).map (fun i => withD.rank.c.get (0 + i)) from rfl,
      dReg_zeros _ _ _ withD_zeros]
    decide
  have hs : skOk .d (withD.bufRead .c 0 4096) = true := by
    simp only [skOk, hr]
    decide +kernel
  simp only [State.pairCheck, hc, hs]
  decide +kernel
/-- Claims.SummaryUpdates: a merge of a pair with its own committed copy, and one of a pair that the segment has refreshed. -/
theorem witness_merge : skSource 0x80000 = some (.c, 0) ∧ (withPair 3).mergeTrap 0 .c 0 = none ∧ (withPair 3).pairType 0 = some .m ∧
    (withPair 3).sourceOk .m .c 0 = true := by decide +kernel
/-- Obligations.SummaryQueries: the bounds of the selectors. -/
theorem witness_selectors : ((withG core 1 511).g 1).toNat < 512 ∧ 512 ≤ ((withG core 1 512).g 1).toNat ∧ (withG core 1 4).g 1 = 4 ∧
    4 < ((withG core 1 5).g 1).toNat := by decide
/-- Claims.SummaryTraps: a pair whose bytes are malformed, and one that is busy. -/
theorem witness_summary_checks : skOk .m ((withPair 2).rank.c.read ((withPair 2).pairCopy 0) 4096) = false ∧
    skOk .m ((withC (withPair 3) 2 1 2).rank.c.read ((withC (withPair 3) 2 1 2).pairCopy 0) 4096) = true ∧
    ((withC (withPair 3) 2 1 2).rank.c.get (0 + 3)).toNat ≤ 1 ∧ (withC (withPair 3) 2 1 2).pairBusy 0 = true := by decide +kernel

/-! ## Witnesses: engine jobs and the supervisor instructions -/

/-- A copy of 16 bytes from the start of W to the start of A, with no completion event. -/
abbrev copyRecord : Nat := 2 ^ 62 + (2 ^ 62 + 2 ^ 18) * 2 ^ 64 + 16 * 2 ^ 128 + 2 ^ 152 + 2 ^ 160
/-- A state whose C holds a record at 0. -/
abbrev withRecord (n w : Nat) : State := withC busy 0 n w
/-- Claims.JobsAreIssued: a copy that is ready to be issued. -/
theorem witness_copy : (withRecord 32 copyRecord).run.kind = .compute ∧ (withRecord 32 copyRecord).clean ∧
    (withRecord 32 copyRecord).qual h0 = true ∧ (withRecord 32 copyRecord).curHandler = false ∧
    (withRecord 32 copyRecord).run.visit = none ∧ (withRecord 32 copyRecord).bufTrap .c 0 32 32 = none ∧
    (∃ o, (withRecord 32 copyRecord).copyCheck .copy (fun _ => none) ((withRecord 32 copyRecord).rank.c.read 0 32) = .ok o ∧
      o.cev = none ∧ o.kind.eng = .copy) ∧ (withRecord 32 copyRecord).vqFull (withRecord 32 copyRecord).rank.key .copy = false ∧
    (withRecord 32 copyRecord).waitsFor [.buf .c 0 32] [] = false ∧ (withRecord 32 copyRecord).retryWaits = false :=
  ⟨rfl, ⟨rfl, rfl, rfl, rfl⟩, rfl, rfl, rfl, rfl, ⟨_, rfl, rfl, rfl⟩, rfl, rfl, rfl⟩
/-- Claims.JobsAreIssued: the same copy with completion event 1, whose arming is accepted. -/
theorem witness_copy_event : (∃ o, (withRecord 32 (copyRecord - 2 ^ 152 + 2 ^ 224)).copyCheck .copy (fun _ => none)
      ((withRecord 32 (copyRecord - 2 ^ 152 + 2 ^ 224)).rank.c.read 0 32) = .ok o ∧ o.cev = some (ev0 1)) ∧
    (busy.drainComb.arm (ev0 1) 2 (some busy.fresh) (some 0)).1 = .ok := ⟨⟨_, rfl, rfl⟩, rfl⟩
/-- A task on a core where page 0 is mapped, with a vocabulary behind handle 0. -/
abbrev reading (n w : Nat) : State := withC { busy with mod := { busy.mod with
  ctxs := [{ aCtx with vocab := #v[[1], [], [], []] }], tlb := [{ ctx := 0, page := 0, leaf := 0x81F }] } } 0 n w
/-- Claims.JobsAreIssued: TXE and TXD of four bytes and one token, with no completion event. -/
theorem witness_text : (∃ o, (reading 32 (4 * 2 ^ 128 + 2 ^ 160 + 2 ^ 218)).textCheck .txe
      ((reading 32 (4 * 2 ^ 128 + 2 ^ 160 + 2 ^ 218)).rank.c.read 0 32) false 4 4 [1] = .ok o ∧ o.cev = none ∧ o.kind = .txe) ∧
    (textRec ((reading 32 (4 * 2 ^ 128 + 2 ^ 160 + 2 ^ 218)).rank.c.read 0 32)).bad = false ∧
    (textRec ((reading 32 (4 * 2 ^ 128 + 2 ^ 160 + 2 ^ 218)).rank.c.read 0 32)).len = 4 ∧
    (textRec ((reading 32 (4 * 2 ^ 128 + 2 ^ 160 + 2 ^ 218)).rank.c.read 0 32)).cap = 1 ∧
    (reading 32 0).vocabIn 0 0 = [1] := ⟨⟨_, rfl, rfl, rfl⟩, rfl, rfl, rfl, rfl⟩
/-- Claims.JobsAreIssued: VOCAB of the least image, 64 bytes. -/
theorem witness_vocab : (∃ o, (reading 32 (64 * 2 ^ 128 + 2 ^ 218)).textCheck .vocab
      ((reading 32 (64 * 2 ^ 128 + 2 ^ 218)).rank.c.read 0 32) false 64 0 [] = .ok o ∧ o.cev = none ∧ o.kind = .vocab) ∧
    (textRec ((reading 32 (64 * 2 ^ 128 + 2 ^ 218)).rank.c.read 0 32)).len = 64 ∧
    (textRec ((reading 32 (64 * 2 ^ 128 + 2 ^ 218)).rank.c.read 0 32)).cap = 0 := ⟨⟨_, rfl, rfl, rfl⟩, rfl, rfl⟩
/-- A broadcast of no bytes in group row 1, with completion event 1. -/
abbrev collecting : State := withC { busy with mod := { busy.mod with
  events := { anEvent 6 { aDesc with kind := .collstart } with launch := some 0 } :: busy.mod.events } } 0 128 (2 + 2 ^ 32 + 2 ^ 96)
/-- Whether checks have passed. -/
def passes {α β : Type} : Except α β → Bool
  | .ok _ => true
  | .error _ => false
/-- Checks that have passed have a result. -/
theorem passes_ok {α β : Type} : ∀ {x : Except α β}, passes x = true → ∃ y, x = .ok y
  | .ok y, _ => ⟨y, rfl⟩
  | .error _, h => nomatch h
/-- C with a pair of type M at 0 and a copy record with completion event 1 at 8,192. -/
abbrev tapping : State := withC (withC (withC busy 0 2 0x0103) 4096 2 0x0103) 8192 32 (copyRecord - 2 ^ 152 + 2 ^ 224)
/-- Claims.JobsAreIssued: the checks of a CPYSK of that pair pass. -/
theorem witness_tap : (∃ o, tapping.copyCheck (.tap 0) (tapping.tapTrap 0) (tapping.rank.c.read 8192 32) = .ok o) ∧
    tapping.bufTrap .c 8192 32 32 = none ∧ tapping.waitsFor [.buf .c 8192 32, .buf .c 0 8192] [.buf .c 0 8192] = false :=
  ⟨passes_ok (by decide +kernel), by decide +kernel, by decide +kernel⟩
/-- Claims.CollIsDeferred: the checks of its block pass. -/
theorem witness_coll_checks : ∃ y, collecting.collCheck (collecting.rank.c.read 0 128) = .ok y := passes_ok (by decide +kernel)
/-- Claims.CollIsDeferred. -/
theorem witness_coll : collecting.run.kind = .compute ∧ collecting.clean ∧ collecting.curHandler = false ∧
    collecting.run.visit = none ∧ collecting.run.deferred.length < 64 ∧ collecting.bufTrap .c 0 128 128 = none ∧
    collecting.vqFull collecting.rank.key .coll = false ∧ collecting.waitsFor [.buf .c 0 128] [] = false ∧
    collecting.qual h0 = true :=
  ⟨rfl, ⟨rfl, rfl, rfl, rfl⟩, rfl, rfl, by decide, rfl, rfl, rfl, rfl⟩
/-- Claims.IssueTraps: a handler, a misaligned record, each malformed field, and a full queue. -/
theorem witness_issue_traps : (inHandler busy).curHandler = true ∧ (16 : Word).toNat % 32 ≠ 0 ∧
    fld ((withRecord 32 0).rank.c.read 0 32) 20 2 = 0 ∧ 1 < fld ((withRecord 32 (2 ^ 153)).rank.c.read 0 32) 19 1 ∧
    2 ^ 20 ≤ fld ((withRecord 32 (2 ^ 244)).rank.c.read 0 32) 28 3 ∧ fld ((withRecord 32 (2 ^ 248)).rank.c.read 0 32) 31 1 ≠ 0 ∧
    ({ withRecord 32 copyRecord with mod := { busy.mod with jobs := [aJob] } } : State).vqFull ⟨0, 0⟩ .copy = true :=
  ⟨rfl, by decide, by decide, by decide, by decide, by decide, by decide⟩
/-- Claims.TrapAndBreak. -/
theorem witness_trap_and_break : busy.qual h0 = true := rfl
/-- Obligations.EretResumes: an aligned and a misaligned TRAPPC. -/
theorem witness_eret : root.supervisor = true ∧ root.qual h0 = true ∧ root.run.sup.trappc.extractLsb' 0 2 = 0 ∧
    ({ root with run := { root.run with sup := { root.run.sup with trappc := 2 } } } : State).run.sup.trappc.extractLsb' 0 2 ≠ 0 := by
  decide
/-- Claims.TranslationInvalidation: the last context number and the first that is none, and the last address. -/
theorem witness_xlinv : root.supervisor = true ∧ root.translated ⟨none, none⟩ = false ∧ ((withG root 1 63).g 1).toNat < 64 ∧
    64 ≤ ((withG root 1 64).g 1).toNat ∧ ((withG root 2 0xFFFFFFFFFFFFF).g 2).toNat < 2 ^ 52 ∧
    2 ^ 52 ≤ ((withG root 2 0x10000000000000).g 2).toNat := by decide
/-- Claims.TranslationInvalidation: an access on its way through a page of context 5. -/
theorem witness_translated : ({ root with mod := { root.mod with others := [{
    core := 0, r := Regs.reset, rank := root.rank, cycle := 0, run := { Run.fresh .compute with ctx := 5, flight := [{
      id := 0, grp := 0, elem := 0, by_ := { aJob.by_ with src := 0x50 }, va := 0, seq := true, acq := false, own := true,
      op := .load .d 1 [0], performed := false, got := [] }] } }] } } :
    State).translated ⟨some 5, none⟩ = true := by decide
/-- The root controller of a module that holds a context and an event. -/
abbrev ruling : State := { root with mod := { root.mod with ctxs := [aCtx], events := busy.mod.events } }
/-- Claims.SupervisorOperations: CTXSAVE of a quiesced context, and a context that is not quiesced; numbers out of range; an event
selector that names an event, one that names all of a context, and one with reserved bits. -/
theorem witness_supervisor : ruling.supervisor = true ∧ ruling.ctx 0 = some aCtx ∧ ruling.isQuiesced aCtx = true ∧
    ruling.settled 0 = true ∧ ruling.ctx 1 = none ∧
    ({ ruling with mod := { ruling.mod with tasks := [aTask] } } : State).isQuiesced aCtx = false ∧
    (1 : Word).extractLsb' 26 38 = 0 ∧ ruling.ev { ctx := ((1 : Word).extractLsb' 20 6).toNat, ev := ((1 : Word).extractLsb' 0 20).toNat } =
      some (anEvent 1 aDesc) ∧ (0x4000000 : Word).extractLsb' 26 38 = 1 ∧ (0x8000000 : Word).extractLsb' 27 37 ≠ 0 :=
  ⟨rfl, rfl, rfl, rfl, rfl, rfl, by decide, rfl, by decide, by decide⟩
/-- Claims.SupervisorOperations: no job in the middle of a row, and one that is. -/
theorem witness_ctxsave_stops : (ruling.stopJobs 0).stopping 0 = false ∧
    (({ ruling with mod := { ruling.mod with jobs := [{ aJob with st := .running, filled := true, left := [(1, 5)] }] } } :
      State).stopJobs 0).stopping 0 = true := by decide +kernel
/-- Claims.KnotOperations: an event without a round and one in a round; a selector with ALL, and events with different names. -/
theorem witness_knotop : ruling.supervisor = true ∧ ruling.ev (ev0 1) = some (anEvent 1 aDesc) ∧ (anEvent 1 aDesc).round = none ∧
    (∃ x, ({ ruling with mod := { ruling.mod with events := [{ anEvent 1 aDesc with
      round := some { pr := ⟨0, 0⟩, granted := [], waiting := [3], released := false } }] } } : State).ev (ev0 1) = some x ∧ x.round ≠ none) ∧
    (0x4000000 : Word).extractLsb' 26 38 = 1 ∧ (ruling.mod.events.map (fun x => x.key)).Nodup ∧
    (∀ x ∈ ruling.mod.events, x.key.ctx = 0 ∧ x.round = none) :=
  ⟨rfl, rfl, rfl, ⟨_, rfl, by decide⟩, by decide, by decide, by decide⟩
/-- A context saved at 0. -/
abbrev aSaved : Saved :=
  { pa := 0, ctx := aCtx, regs := { ptbase := 0, fmtbase := 0, budget := 100, partition := 0, vqbase := 0 }, ranks := [], tasks := [],
    jobs := [], launches := [], events := [], recs := [], texts := [], replies := [], time := 0, taps := [] }
/-- Claims.SupervisorOperations: CTXLOAD of an area that CTXSAVE wrote. -/
theorem witness_ctxload : ({ root with mem := Memory.write root.mem 0 (aSaved.bytes.take 256), mod := { root.mod with
    saved := [aSaved] } } : State).savedAt 0 ≠ none := by decide +kernel
/-- Claims.SupervisorOperations: IDLE with and without a pending interrupt. -/
theorem witness_idle : root.ipendOf root.run = 0 ∧
    root.ipendOf { root.run with sup := { root.run.sup with ipend := 4 } } ≠ 0 := by decide

/-! ## Witnesses: the module's own steps -/

/-- The root controller while a unit's step runs. -/
abbrev doing (o : Owed) : State := { root with doing := some o }
/-- An open choice record of task 0 on event 1. -/
abbrev aRec : Rec :=
  { ro := 3, owner := .wait 0, rank := some ⟨0, 0⟩, alts := [{ e := ev0 1, pay := none, bytes := [] }], stamp := ⟨0, 0⟩, aged := false,
    state := .open_, held := [], st := .occurred, cancel := none, acc := none, drain := false, backoff := [] }
/-- A part that holds one record. -/
abbrev recording (o : Owed) (r : Rec) : State := { doing o with mod := { root.mod with recs := [r] } }
/-- A commit of event 1 for record 3. -/
abbrev aCommit : CommitMsg := { ro := 3, alt := 0, e := ev0 1, inst := 7, st := .occurred, bs := [] }
/-- Claims.ClaimsAnswered: a claim of an open record, of none, of a finished one, and of one claimed by an older and by a younger
event. -/
theorem witness_claims : (recording (.claim 3 (ev0 1) ⟨0, 0⟩) aRec).doing = some (.claim 3 (ev0 1) ⟨0, 0⟩) ∧
    (recording (.claim 3 (ev0 1) ⟨0, 0⟩) aRec).recOf 3 = some aRec ∧ aRec.state = .open_ ∧
    (doing (.claim 3 (ev0 1) ⟨0, 0⟩)).recOf 3 = none ∧
    (∃ r out, (recording (.claim 3 (ev0 1) ⟨0, 0⟩) { aRec with state := .done 0 }).recOf 3 = some r ∧ r.state = .done out) ∧
    (recording (.claim 3 (ev0 2) ⟨0, 0⟩) { aRec with state := .claimed (ev0 1) ⟨0, 0⟩ }).before ⟨0, 0⟩ (ev0 2) ⟨0, 0⟩ (ev0 1) = false ∧
    (recording (.claim 3 (ev0 1) ⟨0, 0⟩) { aRec with state := .claimed (ev0 2) ⟨0, 0⟩ }).before ⟨0, 0⟩ (ev0 1) ⟨0, 0⟩ (ev0 2) = true ∧
    (recording (.claim 3 (ev0 2) ⟨0, 0⟩) { aRec with state := .claimed (ev0 1) ⟨0, 0⟩ }).recOf 3 =
      some { aRec with state := .claimed (ev0 1) ⟨0, 0⟩ } :=
  ⟨rfl, rfl, rfl, rfl, ⟨_, _, rfl, rfl⟩, by decide, by decide, rfl⟩
/-- Claims.ClaimsAnswered: a record that was withdrawn, and one that is parked. -/
theorem witness_claims_refused :
    (∃ r n, (recording (.claim 3 (ev0 1) ⟨0, 0⟩) { aRec with state := .withdrawn 1 }).recOf 3 = some r ∧ r.state = .withdrawn n) ∧
    (∃ r, (recording (.claim 3 (ev0 1) ⟨0, 0⟩) { aRec with state := .parked }).recOf 3 = some r ∧ r.state = .parked) :=
  ⟨⟨_, _, rfl, rfl⟩, ⟨_, rfl, rfl⟩⟩
/-- The record of task 0 after event 1 has claimed it. -/
abbrev claimed (held : List (EvKey × Stamp)) (cancel : Option CommitMsg) : Rec :=
  { aRec with state := .claimed (ev0 1) ⟨0, 0⟩, held := held, cancel := cancel }
/-- Claims.ClaimsAnswered: releases of a record that event 1 claimed: with an occurrence and with a withdrawal waiting, with a
held claim, and with none; of one that holds the claim of the event, and of one that it did not claim. -/
theorem witness_releases : (∃ r p, (recording (.release 3 (ev0 1)) (claimed [] none)).recOf 3 = some r ∧
      r.state = .claimed (ev0 1) p ∧ r.cancel = none ∧ r.held = [] ∧ r.owner.isTry = false) ∧
    (∃ c, (claimed [] (some aCommit)).cancel = some c ∧ c.st ≠ .withdrawn) ∧
    (∃ c, (claimed [] (some { aCommit with st := .withdrawn })).cancel = some c ∧ c.st = .withdrawn) ∧
    (recording (.release 3 (ev0 1)) aRec).firstClaim (claimed [(ev0 2, ⟨0, 0⟩)] none).held = some (ev0 2, ⟨0, 0⟩) ∧
    (∀ h ∈ (claimed [(ev0 2, ⟨0, 0⟩)] none).held, h.1 ≠ ev0 1) ∧
    (∃ h ∈ (claimed [(ev0 2, ⟨0, 0⟩)] none).held, h.1 = ev0 2) ∧
    (∀ p, aRec.state ≠ .claimed (ev0 1) p) ∧ (∀ h ∈ aRec.held, h.1 ≠ ev0 1) := by
  refine ⟨⟨_, _, rfl, rfl, rfl, rfl, rfl⟩, ⟨_, rfl, by decide⟩, ⟨_, rfl, rfl⟩, rfl, by decide, by decide, ?_, by decide⟩
  exact fun p h => nomatch h
/-- Task 0 waits with its record, while a unit's step runs. -/
abbrev waiting (o : Owed) (r : Rec) : State := { recording o r with mod := { (recording o r).mod with
  tasks := [{ aTask with st := .waiting 3 }], events := busy.mod.events } }
/-- Claims.RecordsEnd: COMMIT to an open record, to one that event 1 claimed, to one whose WITHDRAW is on its way, to one that
event 2 claimed, to one that is DONE, and to none. -/
theorem witness_commits : (waiting (.commit aCommit) aRec).doing = some (.commit aCommit) ∧
    (waiting (.commit aCommit) aRec).recOf aCommit.ro = some aRec ∧ aRec.owner = .wait 0 ∧
    (waiting (.commit aCommit) aRec).task 0 = some { aTask with st := .waiting 3 } ∧ aCommit.st = .occurred ∧
    (waiting (.commit aCommit) aRec).tileMoves aRec aCommit = false ∧ aRec.state = .open_ ∧
    (claimed [] none).state = .claimed aCommit.e ⟨0, 0⟩ ∧
    (waiting (.commit aCommit) { aRec with state := .withdrawn 1 }).recOf 3 = some { aRec with state := .withdrawn 1 } ∧
    (ev0 2) ≠ aCommit.e ∧ (waiting (.commit aCommit) { aRec with state := .done 0 }).recOf 3 = some { aRec with state := .done 0 } ∧
    (doing (.commit aCommit)).recOf aCommit.ro = none :=
  ⟨rfl, rfl, rfl, rfl, rfl, rfl, rfl, rfl, rfl, by decide, rfl, rfl⟩
/-- Claims.RecordsEnd: WITHDRAW of an open record, of one that waits for two, and the last one. -/
theorem witness_withdraws : (∀ r n, (waiting (.withdraw (ev0 1) 3) aRec).recOf 3 = some r → r.state ≠ .withdrawn n) ∧
    (waiting (.withdraw (ev0 1) 3) { aRec with state := .withdrawn 2 }).recOf 3 = some { aRec with state := .withdrawn 2 } ∧
    (waiting (.withdraw (ev0 1) 3) { aRec with state := .withdrawn 1 }).commitOwed 3 = false ∧
    (waiting (.tilePayload aCommit) aRec).recOf aCommit.ro = some aRec := by
  refine ⟨fun r n h => ?_, rfl, rfl, rfl⟩
  cases h
  exact fun e => nomatch e
/-- Event 1 with one offer of record 3, in a round. -/
abbrev inRound (granted waiting : List Nat) (released : Bool) : EvState :=
  { anEvent 1 aDesc with
    offers := [{ ro := 3, alt := 0, rank := some 0, bytes := [], stamp := ⟨0, 0⟩, single := false, block := [], job := 0 }]
    round := some { pr := ⟨0, 0⟩, granted := granted, waiting := waiting, released := released } }
/-- A part that holds an event and its record while a unit's step runs. -/
abbrev hearing (o : Owed) (x : EvState) : State :=
  { recording o aRec with mod := { (recording o aRec).mod with events := [x] } }
/-- Claims.KnotsHear: a GRANT that is not waited for, one of a released round, one with others to come, and the last one. -/
theorem witness_grants : (∀ x d, (hearing (.grant (ev0 1) 3) (anEvent 1 aDesc)).ev (ev0 1) = some x → x.round = some d → 3 ∉ d.waiting) ∧
    (hearing (.grant (ev0 1) 3) (inRound [] [3, 4] true)).ev (ev0 1) = some (inRound [] [3, 4] true) ∧
    [3, 4].erase 3 ≠ [] ∧ [3].erase 3 = [] ∧
    (hearing (.grant (ev0 1) 3) (inRound [] [3] false)).ev (ev0 1) = some (inRound [] [3] false) ∧
    (hearing (.grant (ev0 1) 3) (inRound [] [3] false)).conflictsOlder (inRound [] [3] false) ⟨0, 0⟩ [3] = false ∧
    (hearing (.grant (ev0 1) 3) (inRound [] [3] false)).stillParties (inRound [] [3] false) [3] = false ∧
    (hearing (.grant (ev0 1) 3) { inRound [] [3] false with armed := true }).stillParties
      { inRound [] [3] false with armed := true } [3] = true ∧
    (inRound [] [3] false).desc.combine ≠ .user := by
  refine ⟨fun x d h e => ?_, rfl, by decide, by decide, rfl, rfl, rfl, rfl, by decide⟩
  cases h
  exact nomatch e
/-- Claims.KnotsHear: an event of a lower name whose oldest offer, of the same record, is as old. -/
theorem witness_older_conflict : ({ recording (.grant (ev0 1) 3) aRec with mod := { (recording (.grant (ev0 1) 3) aRec).mod with
    events := [inRound [] [3] false, { anEvent 0 aDesc with armed := true, offers := (inRound [] [3] false).offers }] } } :
    State).conflictsOlder (inRound [] [3] false) ⟨0, 0⟩ [3] = true := by decide +kernel
/-- Claims.KnotsHear: REFUSE and REVOKE of a record in a round that is not released, and of one that is in none. -/
theorem witness_refusals : (hearing (.refuse (ev0 1) 3) (inRound [4] [3] false)).ev (ev0 1) = some (inRound [4] [3] false) ∧
    3 ∈ [3] ∧ (hearing (.revoke (ev0 1) 4) (inRound [4] [3] false)).doing = some (.revoke (ev0 1) 4) ∧ 4 ∈ [4] ++ [3] ∧
    (inRound [4] [3] true).round.map (fun d => d.released) = some true := ⟨rfl, by decide, rfl, by decide, rfl⟩
/-- Claims.KnotsHear: an offer to an event that is not ready, and one to a knot that is full. -/
theorem witness_offers : (hearing (.offer 3 0) (anEvent 1 aDesc)).recOf 3 = some aRec ∧ aRec.live = true ∧
    aRec.owner.arity = none ∧ aRec.alts[0]? = some { e := ev0 1, pay := none, bytes := [] } ∧
    (hearing (.offer 3 0) (anEvent 1 aDesc)).offerCheck (anEvent 1 aDesc) aRec = .ok ∧
    aDesc.kind = .counted ∧ (anEvent 1 aDesc).armed = false ∧ (∀ p ∈ (anEvent 1 aDesc).peers, p ∉ root.mod.failed) :=
  ⟨rfl, rfl, rfl, rfl, rfl, rfl, rfl, fun p h => (by cases h)⟩
/-- Claims.KnotsHear: an event with a party on part 1, which has failed. -/
theorem witness_failed_party : ∃ p ∈ ({ anEvent 1 aDesc with peers := [1] } : EvState).peers,
    p ∈ ({ root with mod := { root.mod with failed := [1] } } : State).mod.failed := ⟨1, by decide, by decide⟩
/-- Claims.KnotsHear: an alternative refused FULL at time 0, before and after its 64 ns. -/
theorem witness_backs_off : (recording (.fullBackoff 3 0) (aRec.refusedAt 0 0)).backsOff 3 0 = true ∧
    ({ recording (.fullBackoff 3 0) (aRec.refusedAt 0 0) with time := 64 } : State).backsOff 3 0 = false ∧
    (aRec.refusedAt 0 0).backoffOf 0 = some (64, 64) ∧ aRec.backoffOf 0 = none := by decide
/-- Claims.KnotsHear: a knot whose records are all in use. -/
theorem witness_full_knot (l : List Offer) (full : l.length = 32768) :
    (hearing (.offer 3 0) { anEvent 1 aDesc with offers := l }).offerCheck { anEvent 1 aDesc with offers := l } aRec = .full := by
  simp [State.offerCheck, State.knotUsed, knotCap, full, aDesc, Owner.isWait]
/-- Claims.KnotsHear: a deadline that passes, outside a round and in one; and a sweep of an aged record. -/
theorem witness_deadlines : (hearing (.deadline (ev0 1)) { anEvent 1 aDesc with clock := some 5 }).ev (ev0 1) =
      some { anEvent 1 aDesc with clock := some 5 } ∧ (anEvent 1 aDesc).round = none ∧ (inRound [] [3] false).round ≠ none ∧
    (doing (.agedSweep 0)).doing = some (.agedSweep 0) ∧ (recording (.agedSweep 0) aRec).mod.recs = [aRec] ∧
    (∃ a ∈ aRec.alts, (recording (.agedSweep 0) aRec).knotOf a.e = 0) ∧
    (2 ^ 46 : Int) ≤ ({ recording (.agedSweep 0) aRec with time := 2 ^ 46 } : State).age aRec.stamp :=
  ⟨rfl, rfl, by decide, rfl, rfl, ⟨_, List.mem_singleton.2 rfl, rfl⟩, by decide⟩
/-- Claims.HealthSteps: each of its steps, at the bounds of its ranges. -/
theorem witness_health : (doing .hclrEcc).doing = some .hclrEcc ∧ (doing (.powerCapWindow 3301)).doing = some (.powerCapWindow 3301) ∧
    root.mod.health.cap.toNat < 3301 ∧ root.mod.health.capSteps + root.mod.health.step.toNat < 8 ∧ 3000 ≤ root.mod.health.cap.toNat ∧
    (doing (.patrolScrub (2 ^ 32 - 1) .poisoned)).doing = some (.patrolScrub (2 ^ 32 - 1) .poisoned) ∧
    2 ^ 32 - 1 ∉ root.mod.poison ∧ monitorThere 4 4 = true ∧ 5 * 4 + 4 < 25 ∧ monitorThere 0 0 = true :=
  ⟨rfl, rfl, by decide, by decide, by decide, rfl, by decide, by decide, by decide, by decide⟩
/-- A part whose link 0 has a mode and carrying lanes. -/
abbrev wired (o : Owed) (mode : BitVec 2) (lanes bad : BitVec 8) : State := { doing o with mod := { root.mod with
  links := root.mod.links.set 0 { root.mod.links[0] with peer := 1, mode := mode, lanes := lanes, bad := bad } } }
/-- Claims.LinkSteps: a link in each mode, with the low half good, only the high half good, and neither; a party whose links are
down; and no event in a round. -/
theorem witness_links : (wired (.laneMarginFail 0 7) 0 0xFF 0).link 0 = some { root.mod.links[0] with peer := 1, mode := 0, lanes := 0xFF, bad := 0 } ∧
    (0 ||| (1#8 <<< 7)) &&& 0x0F = 0#8 ∧ (1 ||| (1#8 <<< 3)) &&& 0x0F ≠ 0#8 ∧ (1 ||| (1#8 <<< 3)) &&& 0xF0 = 0#8 ∧
    (1 ||| (1#8 <<< 7)) &&& 0xF0 ≠ 0#8 ∧ (0x0F#8) &&& (1#8 <<< 3) ≠ 0 ∧ (0x0F#8) &&& (1#8 <<< 7) = 0 ∧
    (wired (.flitReplay 0) 1 0xFF 1).link 0 ≠ none ∧ (1 : BitVec 2) ≠ 3 ∧
    (∀ x ∈ (wired (.linkRetrain 0 1) 3 0 0).mod.events, x.round = none) ∧ 1 < 0xFFFF :=
  ⟨rfl, by decide, by decide, by decide, by decide, by decide, by decide, by decide, by decide, fun x h => (by cases h), by decide⟩
/-- Claims.LinkSteps: an event in a round with parties on the part that a link is to reach. -/
theorem witness_retrain_waits : ∃ x ∈ (hearing (.linkRetrain 0 1) { inRound [] [3] false with peers := [1] }).mod.events,
    1 ∈ x.peers ∧ x.round ≠ none := ⟨_, List.mem_singleton.2 rfl, by decide, by decide⟩
/-- Claims.LinkSteps: a peer whose only link went down at time 9. -/
theorem witness_link_down : ({ doing (.linkTimeout 1) with mod := { root.mod with
    links := root.mod.links.set 0 { root.mod.links[0] with peer := 1, mode := 3, down := some 9 } } } : State).partyDown 1 = some 9 := by
  decide
/-- Claims.LinkSteps: a peer that no link names is not down; and a failed one. -/
theorem witness_link_up : (doing (.linkTimeout 1)).partyDown 1 = none ∧
    1 ∈ ({ root with mod := { root.mod with failed := [1] } } : State).mod.failed := ⟨rfl, by decide⟩
/-- Claims.UnitStepsComplete, Claims.PlacementStepsComplete: nothing asked for, and the last core and die. -/
theorem witness_units : root.doing = none ∧ Instr.copyJob ≠ .unassignedOpcode ∧ 0x7FFF < 0x8000 ∧ 3 < 4 ∧
    (doing (.coreFailure 0x7FFF)).doing = some (.coreFailure 0x7FFF) := by decide
/-- A packet that was never refused. -/
abbrev aPacket : Packet := { id := 5, source := 0, seq := 0, cls := .tc0, refusals := 0, backoff := 0, age := 0, promoted := false }
/-- Claims.OutsideInputs: the last byte of device memory; a kick with a reserved bit; an interrupt that is pending; a walk that is not
under way; a packet; and a key of the right length. -/
theorem witness_inputs : (doing (.cxlMemRead (2 ^ 38 - 1) 1)).doing = some (.cxlMemRead (2 ^ 38 - 1) 1) ∧ (2 ^ 38 - 1) + 1 ≤ 2 ^ 38 ∧
    (0x1000000000000 : BitVec 64).extractLsb' 48 13 ≠ 0 ∧ ruling.ctx 0 = some aCtx ∧ (∀ w ∈ root.mod.walks, w.die = 0 → w.ctx = 0 → w.page ≠ 0) ∧
    2 ^ (aCtx.queue 0).lg < ((2 : BitVec 64).setWidth 16 - (aCtx.queue 0).head : BitVec 16).toNat ∧
    (2 : BitVec 64).getLsbD 63 = false ∧
    ({ root with mod := { root.mod with packets := [aPacket] } } : State).mod.packets.find? (fun p => p.id = 5) =
      some aPacket ∧ (List.replicate keyLen (0 : Byte)).length = keyLen :=
  ⟨rfl, by decide, by decide, rfl, fun w h => (by cases h), by decide, rfl, rfl, List.length_replicate⟩

/-! ## Witnesses: memory and the invariant -/

/-- Obligations.MemoryLaws: memories in canonical form, and one that is not. -/
theorem witness_memory : Memory.wf [(3, 1), (7, 255)] = true ∧ Memory.wf [(3, 0)] = false ∧ Memory.wf [(7, 1), (3, 1)] = false := by decide
/-- Obligations.StepKeepsMemoryCanonical: memory is in canonical form right after reset, and the machine takes a step. -/
theorem witness_canonical : State.reset.wf ∧ (∃ t, exec .nop State.reset = .next t) := ⟨⟨rfl, rfl⟩, ⟨_, rfl⟩⟩
/-- FIPS 202's digest of the empty string begins a6 9f 73 cc a2 3a 9a c5 (R342). -/
theorem test_sha3_empty : (sha3 []).extractLsb' 0 64 = 0xc59a3aa2cc739fa6 := by decide +kernel
/-- A task of launch 3 in slot 2 whose record keeps g5 alone. -/
abbrev recTask : Task := { aTask with rank := ⟨3, 0⟩, slot := 2, kept := 0x20 }
/-- R20, R333: a task resumes with the PC, the segment number and the live g5 of its record; g6, discarded, reads zero. -/
theorem test_record_resumes : (fun (r : Regs) =>
      let t := (State.reset.writeRecord recTask r 0x20).readRecord recTask
      (t.saved.g[5], t.saved.g[6], t.saved.pc, t.saved.segseq))
    { Regs.reset with pc := 0x1234, g := Vector.replicate 32 (7 : Word), segseq := 3 } = ((7 : Word), 0, 0x1234, 3) := by
  decide +kernel
/-- R153, R287: a wait whose offer was withdrawn reads the g3 of its first execution, which its mask discarded. -/
theorem test_withdrawn_operands : (fun (t : Task) =>
      let s : State := { core with run := { core.run with resume := true }, mod := { core.mod with tasks := [t] } }
      (s.r.g[3], s.offerPhase.r.g[3], s.offerPhase.run.resume))
    { aTask with outcome := some { st := .withdrawn, ev := 0, inst := 0, alt := 0 }, offered := (Vector.replicate 32 (0 : Word)).set 3 4 }
      = ((0 : Word), 4, false) := by decide

/-! ## Witnesses: what the engines', queues', text path's and mailbox's steps do -/

/-- A part that holds rank 0 of launch 0 and one job, while the job's step runs. -/
abbrev jobbing (j : Job) : State := { busy with doing := some (.copyJob 0), mod := { busy.mod with jobs := [j] } }
/-- A running copy of 16 bytes from W to A. -/
abbrev copying : Job := { aJob with record := natBytes 32 copyRecord, st := .running }
/-- Claims.EngineSteps: a job that is discarded, one that is held, one whose rows are done, one with one byte to read, and one with
one byte to write. -/
theorem witness_copy_steps : (jobbing { aJob with st := .done }).job 0 = some { aJob with st := .done } ∧
    (jobbing { aJob with st := .held }).job 0 = some { aJob with st := .held } ∧
    (copyRec copying.record).rows = 1 ∧ (copyRec copying.record).len = 16 ∧
    (copyRec copying.record).src = some (.own .w 0) ∧ (∃ off, (copyRec copying.record).dst = some (.own .a off)) ∧
    (∃ x, (jobbing { copying with reads := [15] }).readAt { copying with reads := [15] } (copyRec copying.record) 15 = .got x) ∧
    ({ copying with prog := 1 } : Job).prog = 1 ∧ ({ copying with filled := true, left := [(15, 7)] } : Job).left = [(15, 7)] :=
  ⟨rfl, rfl, by decide +kernel, by decide +kernel, by decide +kernel, ⟨_, rfl⟩, ⟨_, rfl⟩, rfl, rfl⟩
/-- A collective of two jobs whose blocks are given, while one of its steps runs. -/
abbrev gathering (o : Owed) (a b : List Byte) (ab : Bool) : State := { busy with doing := some o, mod := { busy.mod with
  jobs := [{ aJob with kind := .coll, record := a, st := .running }, { aJob with id := 1, kind := .coll, record := b, st := .running }]
  events := [{ anEvent 6 { aDesc with kind := .collstart } with coll := some { jobs := [0, 1], start := 0, prog := 0, aborting := ab } }] } }
/-- Claims.EngineSteps: two blocks that name different operations; and a collective that is aborting. -/
theorem witness_coll_steps :
    ((gathering (.collective (ev0 6)) [0] [2] false).ev (ev0 6)).map (fun x => x.coll.map (fun c => c.aborting)) = some (some false) ∧
    ((gathering (.collective (ev0 6)) [0] [2] false).mod.jobs.map (fun j => (collBlk j.record).op)) = [0, 2] ∧
    (∃ j k, (gathering (.collective (ev0 6)) [0] [2] false).collJobs { jobs := [0, 1], start := 0, prog := 0, aborting := false } =
      [j, k] ∧ j.st ≠ .stopped ∧ k.st ≠ .held ∧ (collBlk k.record).key ≠ (collBlk j.record).key) ∧
    ((gathering (.abortColl (ev0 6)) [] [] true).ev (ev0 6)).map (fun x => x.coll.map (fun c => c.aborting)) = some (some true) :=
  ⟨rfl, by decide +kernel, ⟨_, _, rfl, by decide, by decide, by decide +kernel⟩, rfl⟩
/-- A context whose queue 0 is configured, with records from HEAD to TAIL. -/
abbrev kicked (tail : BitVec 16) : Ctx := { aCtx with queues := aCtx.queues.set 0 { cfg := true, base := 0, lg := 1, prio := 0, head := 0, tail := tail, busy := false, err := false } }
/-- A part with one context and one launch, while a unit's step runs, whose tables lead page 0 to memory. -/
abbrev launching (o : Owed) (c : Ctx) (l : Launch) : State :=
  { walkable with doing := some o, mod := { core.mod with ctxs := [c], launches := [l] } }
/-- Claims.LaunchSteps: an empty queue, and one whose record can be read. -/
theorem witness_accept : (launching (.launchAccept 0 0) (kicked 1) aLaunch).ctx 0 = some (kicked 1) ∧
    ((kicked 1).queue 0).cfg = true ∧ ((kicked 1).queue 0).busy = false ∧ ((kicked 1).queue 0).head ≠ ((kicked 1).queue 0).tail ∧
    ((kicked 0).queue 0).head = ((kicked 0).queue 0).tail ∧
    ((launching (.launchAccept 0 0) (kicked 1) aLaunch).liveLaunches 0).length < 16 ∧
    (launching (.launchAccept 0 0) (kicked 1) aLaunch).mod.health.trip = false ∧
    ((launching (.launchAccept 0 0) (kicked 1) aLaunch).table 0 0 256).isSome = true :=
  ⟨rfl, rfl, rfl, by decide, rfl, by decide, rfl, by decide +kernel⟩
/-- A launch that waits for its start. -/
abbrev ready (n : Nat) : Launch := { aLaunch with st := .waiting, decl := { aLaunch.decl with nrank := n } }
/-- Claims.LaunchSteps: a launch of no ranks and one of two that are the first to start; a launch that is not done, and one that
is, of a context with a vector. -/
theorem witness_starts :
    ((launching (.launchStart 0) aCtx (ready 0)).firstReady [ready 0]).map (fun m => m.id) = some 0 ∧
    ((launching (.launchStart 0) aCtx (ready 2)).firstReady [ready 2]).map (fun m => m.id) = some 0 ∧
    ((launching (.launchStart 0) aCtx (ready 2)).readPartition 0).ctx 0 = some aCtx ∧ (ready 0).decl.nrank = 0 ∧
    (launching (.launchComplete 0) aCtx aLaunch).launch 0 = some aLaunch ∧
    (launching (.launchComplete 0) aCtx aLaunch).launchDone aLaunch = true ∧ aLaunch.ctx < 64 ∧
    ({ launching (.launchComplete 0) aCtx aLaunch with mod := { busy.mod with tasks := [aTask] } } : State).launchDone aLaunch = false :=
  ⟨rfl, rfl, rfl, rfl, rfl, rfl, by decide, rfl⟩
/-- A reply state of request 5. -/
abbrev aReply : Reply :=
  { id := 1, ctx := 0, req := 5, vh := 0, maxtok := 8, raddr := [], job := 0, process := 0, detok := 5, emitted := 0, seq := 0, next := 0,
    held := [], dropped := false }
/-- A request whose first chunk is on offer. -/
abbrev aText : TextReq :=
  { id := 1, ctx := 0, req := 5, vh := 0, maxtok := 8, raddr := [], job := 0, process := 0, tok := 5, detok := 5, bind := 4, frames := [],
    next := 1, last := none, bytes := [], tokens := [7], chunk := 0, arrived := 0, offered := some 3, open_ := true }
/-- A part with one request, its reply state and one chunk on an engine binding, while a step of the text path runs. -/
abbrev texting (o : Owed) (msg : List Byte) (r : Reply) : State := { busy with doing := some o, mod := { busy.mod with
  texts := [aText], replies := [r]
  events := [{ anEvent 4 { aDesc with kind := .binding } with binding := some {
    rank := ⟨0, 0⟩, entry := 0, depth := 1, prio := 0, running := [], stage := none, engine := true, standing := true, held := false
    queue := [{ e := ev0 4, inst := 0, msg := msg, stamp := ⟨0, 0⟩, sender := none, rank := ⟨0, 0⟩, entry := 0, prio := 0 }] } }] } }
/-- Claims.TextSteps: a context without a text path; a request with a chunk on offer and nothing missing; its reply state; a chunk of
request 9, which is not open, and one of request 5, which is dropped. -/
theorem witness_text_steps : busy.ctx 0 = some aCtx ∧ aCtx.text = none ∧
    (texting (.tokenChunk 1) [] aReply).textAt 1 = some aText ∧ aText.missing = false ∧
    (texting (.endNotice 1) [] aReply).replyAt 1 = some aReply ∧
    (∃ x b a as, (texting (.detokeniseChunk (ev0 4)) [9] aReply).ev (ev0 4) = some x ∧ x.binding = some b ∧ b.queue = a :: as ∧
      a.req = 9 ∧ (texting (.detokeniseChunk (ev0 4)) [9] aReply).replyOf 0 a.req = none) ∧
    (texting (.detokeniseChunk (ev0 4)) [5] { aReply with dropped := true }).replyOf 0 5 = some { aReply with dropped := true } :=
  ⟨rfl, rfl, rfl, rfl, rfl, ⟨_, _, _, _, rfl, rfl, rfl, rfl, rfl⟩, rfl⟩
/-- A part whose firmware runs, with one context, while a command of tag 7 is served. -/
abbrev serving (o : Owed) (cs : List Ctx) : State :=
  { root with doing := some o, mod := { root.mod with ctxs := cs, boot := { root.mod.boot with state := 1 } } }
/-- Claims.SaveSteps: commands that will be served, of a context that is not there and of one that is not quiesced; no area saved;
and PREEMPT writes that are accepted and refused. -/
theorem witness_save_steps : (serving (.save 7 0 0) [aCtx]).Serves 7 ∧ (serving (.save 7 0 0) []).ctx 0 = none ∧
    (serving (.save 7 0 0) [aCtx]).ctx 0 = some aCtx ∧ aCtx.quiesced = false ∧ (serving (.load 7 0 []) []).savedAt 0 = none ∧
    (serving (.resume 7 0) [aCtx]).mod.preempt.getLsbD 63 = true ∧ root.preemptRefused 0x40 = false ∧
    root.preemptRefused 0x400000 = true := by
  refine ⟨⟨rfl, rfl, fun h => ?_⟩, rfl, rfl, rfl, rfl, rfl, rfl, rfl⟩
  exact nomatch h

end Sys2Proof.Tests
end

section
/-! The scope statements (O44, O58, O60): the laws of memory, trap entry on a root-controller core, and a state from which
a step leaves physical memory out of its canonical form. -/

namespace Sys2Proof.Machine

/-! ## Canonical memories that read alike -/

theorem Memory.get_head (k : Nat) (v : Byte) (m : Memory) : Memory.get ((k, v) :: m) k = v := if_pos rfl
theorem Memory.get_tail {k a : Nat} (v : Byte) (m : Memory) (h : a ≠ k) : Memory.get ((k, v) :: m) a = m.get a := if_neg h
theorem Memory.wfFrom_cell {lo k : Nat} {v : Byte} {m : Memory} :
    Memory.wfFrom lo ((k, v) :: m) = true ↔ lo ≤ k ∧ v ≠ Memory.blank ∧ Memory.wfFrom (k + 1) m = true := by
  simp only [Memory.wfFrom, Bool.and_eq_true, decide_eq_true_eq, and_assoc]
/-- A canonical memory that reads as its first listed byte does at that byte's address starts no later: below its first
address another memory reads blank, and a listed byte is not blank. -/
theorem Memory.head_le_of_get_eq {j k : Nat} {v w : Byte} {m n : Memory} (hv : v ≠ Memory.blank)
    (hn : Memory.wfFrom (j + 1) n = true) (h : ∀ x, Memory.get ((k, v) :: m) x = Memory.get ((j, w) :: n) x) : j ≤ k := by
  refine Nat.le_of_not_lt fun hlt => ?_
  have hk := h k
  rw [Memory.get_head, Memory.get_tail w n (by omega), Memory.get_below hn (by omega)] at hk
  exact hv hk
/-- Two memories in canonical form that read alike at every address are the same data (R1, log 3). -/
theorem Memory.eq_of_get_eq {m n : Memory} {lo : Nat} (hm : Memory.wfFrom lo m = true) (hn : Memory.wfFrom lo n = true)
    (h : ∀ x, m.get x = n.get x) : m = n := by
  induction m generalizing n lo with
  | nil =>
    cases n with
    | nil => rfl
    | cons c n =>
      obtain ⟨j, w⟩ := c
      obtain ⟨-, hw, -⟩ := Memory.wfFrom_cell.mp hn
      exact absurd ((Memory.get_head j w n).symm.trans (h j).symm) hw
  | cons c m ih =>
    obtain ⟨k, v⟩ := c
    obtain ⟨-, hv, hm⟩ := Memory.wfFrom_cell.mp hm
    cases n with
    | nil => exact absurd ((Memory.get_head k v m).symm.trans (h k)) hv
    | cons d n =>
      obtain ⟨j, w⟩ := d
      obtain ⟨-, hw, hn⟩ := Memory.wfFrom_cell.mp hn
      obtain rfl : k = j := Nat.le_antisymm (Memory.head_le_of_get_eq hw hm (fun x => (h x).symm))
        (Memory.head_le_of_get_eq hv hn h)
      have hvw : v = w := by simpa only [Memory.get_head] using h k
      have tails : ∀ x, Memory.get m x = Memory.get n x := fun x => by
        by_cases hx : x = k
        · rw [Memory.get_below hm (by omega), Memory.get_below hn (by omega)]
        · simpa only [Memory.get_tail _ _ hx] using h x
      rw [hvw, ih hm hn tails]

/-- Settles O58: reads after writes and the canonical form by the laws of Laws/Memory.lean, equality by induction on the
two lists, whose first addresses must agree. -/
theorem memoryLaws : Obligations.MemoryLaws := by
  intro m n a b v bs
  refine ⟨?_, ?_, fun i hi => Memory.get_write_in m a bs i hi, Memory.get_write_out m a b bs,
    fun w => ⟨Memory.wf_write a bs w, Memory.wf_clear a b w⟩, Memory.eq_of_get_eq⟩
  · rw [Memory.get_set, if_pos rfl]
  · intro hb
    rw [Memory.get_set, if_neg hb]

/-! ## Trap entry on a root-controller core -/

/-- A trap on a root-controller core is its trap entry (R219, R220). -/
theorem State.trap_of_root {s : State} (x : Trap) (a : Word) (k : s.run.kind = .root) :
    s.trap x a = s.enterTrap x.code s.r.pc a := by
  rw [State.trap, State.trapAt, k]
theorem exec_trap (h : Hdr) (imm : BitVec 30) (s : State) :
    exec (.trap h imm) s = checkedStep h 8 (fun s => s.trap .user (imm.setWidth 64)) s := rfl
theorem exec_brk (h : Hdr) (imm : BitVec 30) (s : State) :
    exec (.brk h imm) s = checkedStep h 8 (fun s => s.trap .break_ (imm.setWidth 64)) s := rfl

/-- Settles O44: trap entry is the one update that the statement writes out, and a true qualifier lets TRAP and BRK trap. -/
theorem trapEntry : Obligations.TrapEntry := by
  refine ⟨fun s x a k => ?_, fun h imm s q => ⟨?_, ?_⟩⟩
  · rw [State.trap_of_root x a k, State.enterTrap]
  · rw [exec_trap, checkedStep_true _ _ q]
  · rw [exec_brk, checkedStep_true _ _ q]

/-! ## A step that leaves memory out of its canonical form

The canonical form of State.wf is that of physical memory and the root controller's SRAM alone. A rank that leaves its
core has the blocks it has written spliced into its save image as its buffers list them (R319), and nothing asks those
buffers to be in canonical form. -/

/-- A resident rank whose W lists a blank byte at 0, in a block not yet saved; its save image lies at 0. -/
def unsavedRank : RankSt :=
  { RankSt.empty ⟨1, 0⟩ 0 0 with w := [(0, Memory.blank)], unsaved := 1, place := some 0 }
/-- Another rank of core 0, resident nowhere. -/
def absentRank : RankSt := { RankSt.empty ⟨1, 1⟩ 0 0 with place := some imageBytes, slot := 1 }
/-- A ready task of that rank, so that the resident rank must leave before it runs (R319). -/
def readyTask : Task where
  id := 0
  rank := ⟨1, 1⟩
  ctx := 0
  core := 0
  slot := 0
  tcb := { entry := 0x1000, prio := 0, handler := false, gang := false, migrate := false, rank := 1, live := 0, foot := [],
           succ := [], budget := 100, arg := [] }
  saved := Regs.reset
  st := .ready 0
  resume := false
  outcome := none
  wait := none
  hold := false
  drainFlags := 0
  act := none
  visitor := false
  kept := 0
  offered := Vector.replicate 32 0
/-- A compute core that runs nothing and holds the rank, with the dispatch of the task as the only thing that can happen. -/
def beforeDispatch : State :=
  { State.reset with
    core := 0
    run := Run.fresh .compute
    rank := unsavedRank
    pending := [.taskDispatch 0]
    mod := { Module.reset with tasks := [readyTask], ranks := [absentRank] } }
/-- The same with time passed and the dispatch under way. -/
def inDispatch : State := { beforeDispatch.advance with pending := [], doing := some (.taskDispatch 0) }

theorem beforeDispatch_wf : beforeDispatch.wf := ⟨rfl, rfl⟩
theorem beforeDispatch_choose : beforeDispatch.advance.choose = some (.owed (.taskDispatch 0)) := rfl
theorem step_beforeDispatch : step beforeDispatch = .next (inDispatch.dispatchCore 0) := by
  rw [step, beforeDispatch_choose]
  rfl
/-- The dispatch writes to memory what saving the resident rank writes. -/
theorem dispatchCore_mem_inDispatch : (inDispatch.dispatchCore 0).mem = inDispatch.saveResident.mem := by decide +kernel
/-- Saving the rank lists its blank byte in physical memory. -/
theorem saveResident_mem_inDispatch : inDispatch.saveResident.mem = [(0, Memory.blank)] := by decide +kernel

/-- Refutes O60: the dispatch of a task of another rank saves the resident rank, whose W lists a zero byte, and physical
memory then lists that byte. The statement's hypothesis leaves out the canonical form of the ranks' buffers. -/
theorem not_stepKeepsMemoryCanonical : ¬ Obligations.StepKeepsMemoryCanonical := by
  intro h
  obtain ⟨hmem, -⟩ := h beforeDispatch _ beforeDispatch_wf step_beforeDispatch
  rw [dispatchCore_mem_inDispatch, saveResident_mem_inDispatch] at hmem
  exact absurd hmem (by decide)

end Sys2Proof.Machine
end
